-- ==== Sys2Proof/Word.lean ====
section
/-! DEFINITION. The machine's word types (00_scope R7). All quantities are unsigned (R8, R201). -/

namespace Sys2Proof

/-- A byte: a memory cell, MDR, pc and the 8-bit CPU registers (R7). -/
abbrev Byte := BitVec 8

/-- The 16-bit content of MAR: an architectural address or, after the byte swap, a cell index (R7, R60). -/
abbrev Addr := BitVec 16

/-- The accumulator: 9 bits, enough for the unwrapped sum of an overflowing ADC (R7, R22, D24). -/
abbrev AccWord := BitVec 9

end Sys2Proof
end

