-- ==== Sys2Proof/Config.lean ====
section
/-! DEFINITION. What the hardware fixes as sizes and what the spec leaves as a parameter (00_scope R7, 92 part 2).
`LISTENERS`, `DEVICES`, `PROGRAM` and the device schedule are data of `State`; the rest stand here. -/

namespace Sys2Proof.Config

/-- The number of memory cells (R7, R33). -/
def memorySize : Nat := 65536

/-- What a cell that nothing has written holds: Memory is zeroed at creation and on reset (R33, R42, R77). -/
def unlistedByte : Byte := 0

/-- `TICK_INTERVAL` (R7): open, and no rule depends on it (R331). -/
opaque tickInterval : Nat

/-- `INT_RADIX` (R7, D11): the radix in which the host shows an `Int` item; no rule depends on it. -/
opaque intRadix : Nat

/-- The text that `memoryDump` returns for an address outside the array: any string, never a fault (R82, U13). -/
opaque dumpPlaceholder : String

end Sys2Proof.Config
end

