-- ==== Sys2Proof/Machine/State.lean ====
section
/-! DEFINITION. The state of the four blocks (10_state), the types it is made of, the state after reset (R42), and the
reasons a step can end without a next state. -/

namespace Sys2Proof.Machine

/-- The six pipeline stages that `step` selects, 0 to 5 in this order (R29, R140). -/
inductive Stage where
  | fetch
  | decodeOpcode
  | decodeOperand
  | execute
  | writeback
  | interruptCheck
  deriving DecidableEq, Repr

/-- Why the CPU asked the system to stop (R31, R250, R251). -/
inductive StopReason where
  /-- BRK, the normal end of a program (R235). -/
  | brk
  /-- An ADC whose sum exceeds 0xFF (R200). -/
  | accOverflow
  /-- An opcode byte outside the table (R237). -/
  | unknownOpcode
  deriving DecidableEq, Repr

/-- An item of the output stream (R32, R228): the number or the byte itself, never its text (D11). -/
inductive OutItem where
  | int (n : Byte)
  | char (b : Byte)
  deriving DecidableEq, Repr

/-- The two queues of a device (R39). -/
inductive Port where
  | input
  | output
  deriving DecidableEq, Repr

/-- What the host may try to register with the Clock: the blocks and a device (R6, R131). -/
inductive Component where
  | cpu
  | memory
  | controller
  | mmu
  | clock
  | device (d : Nat)
  deriving DecidableEq, Repr

/-- The pulse listeners (R130). -/
inductive Listener where
  | cpu
  | memory
  | controller
  deriving DecidableEq, Repr

/-- The two ways to give an address to the register protocol (R63). -/
inductive AddrForm where
  /-- One integer, used for the fetch address. -/
  | int (n : Addr)
  /-- A byte pair, used for the address latches. -/
  | pair (b0 b1 : Byte)
  deriving DecidableEq, Repr

/-- A device (R39, R256): identity, IRQ number and priority are its constants, the two queues are state, `debug` is the
flag `addDevice` copies to it (R263). Queue elements are opaque values (R39); DESIGN CHOICE, log entry 5: numbers. -/
structure Device where
  name : String
  irq : Nat
  priority : Int
  input : List Nat
  output : List Nat
  debug : Bool
  deriving DecidableEq, Repr

/-- An entry of the pending queue: a reference to a device, with the priority read when it was enqueued (R37, R264).
DESIGN CHOICE, log entry 6. -/
structure Pending where
  device : Nat
  priority : Int
  deriving DecidableEq, Repr

/-- A call to the log that a rule makes (R131, R270); the text of a line is out of scope (R4, R290). -/
inductive LogItem where
  /-- Stage 5 removed `value` from a queue of a device (R270). -/
  | drained (device : Nat) (port : Port) (value : Nat)
  /-- `addListener` turned a component away (R131). -/
  | rejectedListener (c : Component)
  deriving DecidableEq, Repr

/-- What `memoryDump` gives for one address: the stored byte, or the placeholder outside the array (R82). -/
inductive DumpEntry where
  | stored (b : Byte)
  | outside (placeholder : String)
  deriving DecidableEq, Repr

/-- What a device or the host does between two ticks (R6, R135, R257). -/
inductive Action where
  /-- A device pushes a value into its own input queue (R257). -/
  | pushInput (d : Nat) (v : Nat)
  /-- A device pushes a value into its own output queue (R257). -/
  | pushOutput (d : Nat) (v : Nat)
  /-- A device notifies the controller (R258). -/
  | acceptInterrupt (d : Nat)
  /-- The host creates a device (R256, R311). -/
  | createDevice (name : String) (irq : Nat) (priority : Int)
  /-- The host registers a device with the controller (R263). -/
  | addDevice (d : Nat)
  /-- The host registers a listener with the Clock (R131). -/
  | addListener (c : Component)
  /-- The host starts the Clock (R132). -/
  | start
  /-- The host stops the Clock (R133). -/
  | stop
  /-- The host delivers one round of pulses by hand (R289). -/
  | sendPulse
  /-- The host resets Memory (R83, R301). -/
  | memoryReset
  /-- The host's loader stores a byte through `writeImmediate` (R310). -/
  | store (a : Addr) (b : Byte)
  /-- The host's loader stores a byte in raw mode at a cell index (R70, R310). -/
  | rawStore (i : Addr) (b : Byte)
  /-- The host re-creates the whole CORE (R300, D26). -/
  | recreate
  deriving DecidableEq, Repr

/-- Memory: (cell index, byte) pairs in one canonical form, indices strictly rising and below 65536, no entry equal to
what an unlisted cell holds (R33). -/
abbrev Memory := List Host.Cell

/-- The whole state (R20). Fields are under the spec's names; `stopCalls`, `log` and `inputs` are the model's own. -/
structure State where
  /-- Program counter, wrapping modulo 256 (R24). -/
  pc : Byte
  /-- Accumulator; above 0xFF only after an `accOverflow` stop (R22). -/
  acc : AccWord
  /-- X register (R21). -/
  xReg : Byte
  /-- Y register (R21). -/
  yReg : Byte
  /-- The comparison flag: 1 means "not equal" (R25). -/
  zFlag : BitVec 1
  /-- Instruction register, written only by stage 1 (R26). -/
  ir : Byte
  /-- Fetch latch: the last byte fetched (R27). -/
  opp : Byte
  /-- High address latch (R28). -/
  irx : Byte
  /-- Low address latch (R28). -/
  iry : Byte
  /-- Stage selector (R29). -/
  step : Stage
  /-- Sub-cycle counter (R30). -/
  stepCounter : Nat
  /-- Stop latch (R31). -/
  halted : Option StopReason
  /-- Output stream, oldest first (R32). -/
  out : List OutItem
  /-- The byte array (R33). -/
  mem : Memory
  /-- Memory address register (R34). -/
  mar : Addr
  /-- Memory data register (R35). -/
  mdr : Byte
  /-- The controller's pending queue, head first (R37). -/
  queue : List Pending
  /-- The controller's registry of devices (R38). -/
  devices : List Nat
  /-- The controller's debug flag (R38). -/
  controllerDebug : Bool
  /-- The devices that exist; a device reference is an index into this list (R39). -/
  deviceTable : List Device
  /-- The Clock's listeners in registration order (R40). -/
  listeners : List Listener
  /-- The Clock holds a timer handle (R40). -/
  running : Bool
  /-- How many stopSystem signals the System collaborator has received (R250). DESIGN CHOICE, log entry 9. -/
  stopCalls : Nat
  /-- The log calls made so far, oldest first (R270, R131). DESIGN CHOICE, log entry 8. -/
  log : List LogItem
  /-- What devices and the host do before each of the next ticks, one list a tick. DESIGN CHOICE, log entry 2. -/
  inputs : List (List Action)
  deriving DecidableEq, Repr

/-- The machine has no fault: no access, operand or instruction ends a run by one (R252). The three stops are states
with `halted` set (R250, R255). Nothing raises it, so it is safe. -/
inductive Fault where
  deriving DecidableEq, Repr

/-- Why a step has no meaning. Each is safe: nothing can be proved through it. -/
inductive Refusal where
  /-- Raised by an arm of `exec` whose instruction has no meaning yet. Safe. -/
  | notModelled (mnemonic : String)
  /-- Raised by SYS in stage 3 with xReg outside 1 and 2, which the spec gives no meaning (R232, D10, U3). Safe. -/
  | sysSelector
  /-- Raised by a CPU pulse in stage 3 with ir outside the opcode table, a state no run reaches (R145, U22). Safe. -/
  | executeUnknownIr
  /-- Raised by a CPU pulse with acc above 0xFF and no stop, a state no run reaches (R22, U22). Safe. -/
  | accOutOfRange
  deriving DecidableEq, Repr

/-- The machine right after creation, every value as R42 states it; the fields that R42 has no row for are marked. -/
def State.reset : State where
  pc := 0x00
  acc := 0x00
  xReg := 0x00
  yReg := 0x00
  zFlag := 0
  ir := 0x00
  opp := 0x00
  irx := 0x00
  iry := 0x00
  step := .fetch
  stepCounter := 0
  halted := none
  out := []
  mem := []
  mar := 0x0000
  mdr := 0x00
  queue := []
  devices := []
  -- DEDUCED from R290 "default on", log entry 14
  controllerDebug := true
  -- no row of R42: no device exists before the host creates one, DESIGN CHOICE, log entry 5
  deviceTable := []
  listeners := []
  running := false
  -- the model's own fields: DESIGN CHOICE, log entries 9, 8 and 2
  stopCalls := 0
  log := []
  inputs := []

end Sys2Proof.Machine
end

