-- ==== Sys2Proof/Machine/Ops.lean ====
section
/-! DEFINITION. The named operations over memory, registers, output and stops that every stage and every instruction is
made of: the byte array, the MAR/MDR protocol (20_memory), the fetch routine and the register moves of the stages
(40_clock_and_pipeline), `emit` (R228) and `raise Stop`, this hardware's only exception (R250). -/

namespace Sys2Proof.Machine

/-! ## Bytes of an address -/

/-- `b0:b1`, the 16-bit value with `b0` as its high byte (R8, R63). -/
def pairAddr (b0 b1 : Byte) : Addr := b0 ++ b1

/-- `a[15:8]` (R8). -/
def hiByte (a : Addr) : Byte := a.extractLsb' 8 8

/-- `a[7:0]` (R8). -/
def loByte (a : Addr) : Byte := a.extractLsb' 0 8

/-- The fetch address `zext_16(pc)`: high byte 0 (R9, R68). -/
def fetchAddr (pc : Byte) : Addr := pairAddr 0 pc

/-- The cell that an architectural address reaches: its two bytes exchanged (R64). -/
def cellIndex (a : Addr) : Addr := pairAddr (loByte a) (hiByte a)

/-! ## The byte array -/

/-- The byte at cell `i`; a cell that is not listed holds `Config.unlistedByte` (R33, R77). -/
def Memory.read (m : Memory) (i : Nat) : Byte :=
  match m with
  | [] => Config.unlistedByte
  | (k, b) :: rest => if k = i then b else Memory.read rest i

/-- Memory without an entry for cell `i`. -/
def Memory.erase (m : Memory) (i : Nat) : Memory :=
  m.filter (fun c => c.1 != i)

/-- Memory with an entry for cell `i` put before the first greater index. -/
def Memory.insert (m : Memory) (i : Nat) (b : Byte) : Memory :=
  match m with
  | [] => [(i, b)]
  | (k, c) :: rest => if i < k then (i, b) :: (k, c) :: rest else (k, c) :: Memory.insert rest i b

/-- Memory with byte `b` at cell `i`; writing what an unlisted cell holds removes the entry. -/
def Memory.write (m : Memory) (i : Nat) (b : Byte) : Memory :=
  if b = Config.unlistedByte then Memory.erase m i else Memory.insert (Memory.erase m i) i b

/-- The canonical form from index `lo` on: indices at least `lo`, strictly rising and inside the array, no entry equal to
what an unlisted cell holds. -/
def Memory.wfFrom (lo : Nat) (m : Memory) : Bool :=
  match m with
  | [] => true
  | (k, b) :: rest =>
    decide (lo ≤ k) && decide (k < Config.memorySize) && (b != Config.unlistedByte) && Memory.wfFrom (k + 1) rest

/-- The canonical form of memory. -/
def Memory.wf (m : Memory) : Bool := Memory.wfFrom 0 m

/-- The byte at an architectural address, leaving MAR and MDR alone: what a read of `a` would return (R65). -/
def State.byteAt (s : State) (a : Addr) : Byte :=
  Memory.read s.mem (cellIndex a).toNat

/-! ## The register protocol of Memory and the MMU's immediate mode -/

/-- `setMAR(a)` (R61). -/
def State.setMar (s : State) (a : Addr) : State := { s with mar := a }

/-- `setMARhigh(b)`: writes MAR[15:8] (R61). -/
def State.setMarHigh (s : State) (b : Byte) : State := { s with mar := pairAddr b (loByte s.mar) }

/-- `setMARlow(b)`: writes MAR[7:0] (R61). -/
def State.setMarLow (s : State) (b : Byte) : State := { s with mar := pairAddr (hiByte s.mar) b }

/-- `setMDR(v)` (R61). -/
def State.setMdr (s : State) (v : Byte) : State := { s with mdr := v }

/-- `getMDR()` (R61). -/
def State.getMdr (s : State) : Byte := s.mdr

/-- `read()`: MDR takes the cell that MAR selects (R61, R64). -/
def State.readCell (s : State) : State := { s with mdr := Memory.read s.mem (cellIndex s.mar).toNat }

/-- `write()`: the cell that MAR selects takes MDR (R61, R64). -/
def State.writeCell (s : State) : State := { s with mem := Memory.write s.mem (cellIndex s.mar).toNat s.mdr }

/-- The MAR value a form of address stands for (R63). -/
def AddrForm.addr : AddrForm → Addr
  | .int n => n
  | .pair b0 b1 => pairAddr b0 b1

/-- `setMAR(addr)` for either form: a pair is stored by halves (R63; the order is not observable, D29). -/
def State.setAddress (s : State) (f : AddrForm) : State :=
  match f with
  | .int n => s.setMar n
  | .pair b0 b1 => (s.setMarHigh b0).setMarLow b1

/-- `readImmediate(addr)`: setMAR, then read; the value is then in MDR (R62, R66). -/
def State.readImmediate (s : State) (f : AddrForm) : State := (s.setAddress f).readCell

/-- `writeImmediate(addr, data)`: setMAR, then setMDR, then write (R62, R67). -/
def State.writeImmediate (s : State) (f : AddrForm) (v : Byte) : State := ((s.setAddress f).setMdr v).writeCell

/-! ## Raw mode and the host's operations on Memory -/

/-- A raw read at a cell index (R70). -/
def State.rawRead (s : State) (i : Addr) : Byte := Memory.read s.mem i.toNat

/-- A raw write at a cell index; MAR and MDR are unchanged (R70). -/
def State.rawWrite (s : State) (i : Addr) (v : Byte) : State := { s with mem := Memory.write s.mem i.toNat v }

/-- `reset()` of Memory: MAR, MDR and the whole array become zero, nothing else changes (R83). -/
def State.memoryReset (s : State) : State := { s with mem := [], mar := 0, mdr := 0 }

/-- The dump entry of one cell index (R82, D14). -/
def State.dumpEntry (s : State) (i : Int) : DumpEntry :=
  if 0 ≤ i ∧ i < Config.memorySize then .stored (Memory.read s.mem i.toNat) else .outside Config.dumpPlaceholder

/-- `memoryDump(from, to)` over the inclusive range of cell indices; it only reads (R82). -/
def State.memoryDump (s : State) (first last : Int) : List (Int × DumpEntry) :=
  (List.range (last + 1 - first).toNat).map fun (k : Nat) => (first + (k : Int), s.dumpEntry (first + (k : Int)))

/-! ## Register moves of the CPU -/

/-- The stage that `step + 1` names, in the cyclic order of R140. -/
def Stage.succ : Stage → Stage
  | .fetch => .decodeOpcode
  | .decodeOpcode => .decodeOperand
  | .decodeOperand => .execute
  | .execute => .writeback
  | .writeback => .interruptCheck
  | .interruptCheck => .fetch

/-- The number 0 to 5 that the spec gives a stage (R29). -/
def Stage.number : Stage → Nat
  | .fetch => 0
  | .decodeOpcode => 1
  | .decodeOperand => 2
  | .execute => 3
  | .writeback => 4
  | .interruptCheck => 5

/-- Sets the stage selector (R29). -/
def State.setStep (s : State) (st : Stage) : State := { s with step := st }

/-- The address that the two latches name, `irx:iry` (R28, R68). -/
def State.latched (s : State) : Addr := pairAddr s.irx s.iry

/-- Writes an address into the two latches (R229). -/
def State.setLatches (s : State) (a : Addr) : State := { s with irx := hiByte a, iry := loByte a }

/-- Reads the byte at `irx:iry` into MDR (R68). -/
def State.readLatched (s : State) : State := s.readImmediate (.pair s.irx s.iry)

/-- Writes a byte at `irx:iry` (R68). -/
def State.writeLatched (s : State) (v : Byte) : State := s.writeImmediate (.pair s.irx s.iry) v

/-- `raise Stop(reason)`: records the reason, signals stopSystem once, and leaves everything else as it stands; `step`
and `stepCounter` keep their values (R150, R250). Nothing is saved and nothing vectors (R271); there is no return (R255). -/
def State.raiseStop (s : State) (r : StopReason) : State :=
  { s with halted := some r, stopCalls := s.stopCalls + 1 }

/-- `emit`: appends one item to the output stream (R228). -/
def State.emit (s : State) (item : OutItem) : State := { s with out := s.out ++ [item] }

/-- What the fetch routine does once the byte `b` has come from memory address `zext_16(pc)`: MAR and MDR hold that
access, `b` is in opp, pc moves on modulo 256, `step` and `stepCounter` are incremented (R142). -/
def State.latchFetch (s : State) (b : Byte) : State :=
  { s with mar := fetchAddr s.pc, mdr := b, opp := b, pc := s.pc + 1, step := s.step.succ,
           stepCounter := s.stepCounter + 1 }

/-- Stage 1, DECODE-OPCODE: ir takes opp, and stage 2 is next; `stepCounter` is incremented here (R143, D2). -/
def State.decodeOpcode (s : State) : State :=
  { s with ir := s.opp, step := .decodeOperand, stepCounter := s.stepCounter + 1 }

/-- First pass of a two-byte address: the high byte goes to irx and stage 2 runs again (R147). -/
def State.latchHigh (s : State) : State := { s with irx := s.opp, step := .decodeOperand }

/-- Second pass of a two-byte address: the low byte goes to iry (R147). -/
def State.latchLow (s : State) : State := { s with iry := s.opp }

/-! ## The course of an instruction around its own work (R151) -/

/-- Pulses 1 to 3 of a one-byte instruction whose opcode byte is `op`: fetch, decode-opcode, direct advance (R144). -/
def State.issueDirect (s : State) (op : Byte) : State :=
  ((s.latchFetch op).decodeOpcode).setStep .execute

/-- Pulses 1 to 3 of a two-byte instruction: fetch, decode-opcode, operand fetch (R144). -/
def State.issueOperand (s : State) (op b : Byte) : State :=
  ((s.latchFetch op).decodeOpcode).latchFetch b

/-- Pulses 1 to 5 of a three-byte instruction and the latching of iry by its second pass: both address bytes are
gathered and `irx:iry` is `hi:lo` (R147). -/
def State.issueAddress (s : State) (op hi lo : Byte) : State :=
  (((s.issueOperand op hi).latchHigh).latchFetch lo).latchLow

end Sys2Proof.Machine
end

