-- ==== Sys2Proof/Machine/Controller.lean ====
section
/-! DEFINITION. Devices, the InterruptController's priority queue, and the device half of stage 5
(60_exceptions parts 2 and 3). -/

namespace Sys2Proof.Machine

/-- `enqueue` on the queue, head first. The scan from the tail passes over lower entries and stops at the first that is
not lower; the new entry goes behind that one, or becomes the head when every entry is lower (R259, C2). In this
recursion from the head: it goes in front of the first entry from which on all entries are lower. -/
def enqueue (p : Pending) (q : List Pending) : List Pending :=
  match q with
  | [] => [p]
  | x :: rest =>
    if (x :: rest).all (fun y => decide (y.priority < p.priority)) then p :: x :: rest else x :: enqueue p rest

/-- `acceptInterrupt(device)`: enqueues the device, with no check of registration, duplicates or queue contents
(R258, D19). A reference to no device is ignored: DESIGN CHOICE, log entry 7. -/
def State.acceptInterrupt (s : State) (d : Nat) : State :=
  match s.deviceTable[d]? with
  | none => s
  | some dev => { s with queue := enqueue { device := d, priority := dev.priority } s.queue }

/-- `dequeue()`, which is `getInterrupt()`: removes and returns the head, or gives an absent result and changes nothing
(R260, R261). -/
def State.getInterrupt (s : State) : Option Nat × State :=
  match s.queue with
  | [] => (none, s)
  | p :: rest => (some p.device, { s with queue := rest })

/-- The contents of one of a device's queues. -/
def Device.port (dev : Device) : Port → List Nat
  | .input => dev.input
  | .output => dev.output

/-- A device with new contents of one of its queues. -/
def Device.setPort (dev : Device) (p : Port) (l : List Nat) : Device :=
  match p with
  | .input => { dev with input := l }
  | .output => { dev with output := l }

/-- Stores a device back into the table. -/
def State.setDevice (s : State) (d : Nat) (dev : Device) : State :=
  { s with deviceTable := s.deviceTable.set d dev }

/-- Removes and logs the head of one queue of a device, if there is one (R270; an empty queue is nothing to do, R253). -/
def State.drain (s : State) (d : Nat) (p : Port) : State :=
  match s.deviceTable[d]? with
  | none => s
  | some dev =>
    match dev.port p with
    | [] => s
    | v :: rest => { s.setDevice d (dev.setPort p rest) with log := s.log ++ [.drained d p v] }

/-- `ServiceInterrupt()`: takes the next pending device, if any, and removes one value from its input queue and then one
from its output queue (R270, D25). No CPU register and no memory cell changes (R271). -/
def State.serviceInterrupt (s : State) : State :=
  match s.getInterrupt with
  | (none, s') => s'
  | (some d, s') => (s'.drain d .input).drain d .output

/-- A device appends a value to one of its own queues (R257). A reference to no device is ignored: DESIGN CHOICE, log
entry 7. -/
def State.push (s : State) (d : Nat) (p : Port) (v : Nat) : State :=
  match s.deviceTable[d]? with
  | none => s
  | some dev => s.setDevice d (dev.setPort p (dev.port p ++ [v]))

/-- The host creates a device: its queues are empty (R256, R39) and its debug flag is on (R290, log entry 14). -/
def State.createDevice (s : State) (name : String) (irq : Nat) (priority : Int) : State :=
  let dev : Device := { name := name, irq := irq, priority := priority, input := [], output := [], debug := true }
  { s with deviceTable := s.deviceTable ++ [dev] }

/-- `addDevice(device)`: appends it to the registry and copies the controller's debug flag to it; it is not enqueued
(R263). A reference to no device is ignored: DESIGN CHOICE, log entry 7. -/
def State.addDevice (s : State) (d : Nat) : State :=
  match s.deviceTable[d]? with
  | none => s
  | some dev => { s.setDevice d { dev with debug := s.controllerDebug } with devices := s.devices ++ [d] }

end Sys2Proof.Machine
end

