-- ==== Sys2Proof/Machine/Stages.lean ====
section
/-! DEFINITION. The stages that are the same for every instruction: the fetch routine (R142), WRITEBACK (R148) with the
increment of INC in it (R203), and INTERRUPT-CHECK (R149). -/

namespace Sys2Proof.Machine

/-- The fetch routine: reads the byte at `pc` and latches it (R142). -/
def State.fetchRoutine (s : State) : State := s.latchFetch (s.byteAt (fetchAddr s.pc))

/-- Stage 4 of INC: re-reads the cell at `irx:iry`, adds 1 modulo 256 and writes it back (R148, R203, D7). -/
def State.incrementCell (s : State) : State :=
  let r := s.readLatched
  r.writeLatched (r.getMdr + 1)

/-- Stage 4, WRITEBACK: only INC does work; the test is on ir alone (R148, R204). -/
def State.writeback (s : State) : State :=
  (if s.ir = 0xEE then s.incrementCell else s).setStep .interruptCheck

/-- Stage 5, INTERRUPT-CHECK: services at most one device and returns to FETCH (R149). -/
def State.interruptCheck (s : State) : State :=
  { s.serviceInterrupt with step := .fetch, stepCounter := 0 }

/-- The last two pulses of an instruction that did not stop: stages 4 and 5 (R151). -/
def State.retire (s : State) : State := s.writeback.interruptCheck

end Sys2Proof.Machine
end

