-- ==== Sys2Proof/Machine/Operands.lean ====
section
/-! DEFINITION. The operand forms an instruction has, as stage 3 sees them: the constant in opp, the absolute address in
the latches, and the branch offset (30_encoding R102, 41_loads_and_stores R187, 43_branch R215). -/

namespace Sys2Proof.Machine

/-- The constant of an IMM instruction: opp as it stands, with no extension or scaling (R102, R187). -/
def State.constant (s : State) : Byte := s.opp

/-- The datum of an ABS instruction: the memory byte at `irx:iry`, with MAR and MDR left at that access (R187, R68). -/
def State.absolute (s : State) : Byte × State :=
  let r := s.readLatched
  (r.getMdr, r)

/-- The branch target: pc, which is already past the operand byte, plus the raw unsigned offset modulo 256
(R102, R215). -/
def State.branchTarget (s : State) : Byte := s.pc + s.opp

/-- A byte as an accumulator value. -/
def byteToAcc (b : Byte) : AccWord := b.setWidth 9

/-- `acc[7:0]`, the byte STA stores (R67, R182, D27). -/
def State.accByte (s : State) : Byte := s.acc.setWidth 8

end Sys2Proof.Machine
end

