-- ==== Sys2Proof/Machine/Flags.lean ====
section
/-! DEFINITION. The one flag, and the one overflow condition (10_state R25, 42_arithmetic_and_compare). -/

namespace Sys2Proof.Machine

/-- zFlag after CPX: 0 when equal, 1 when different (R202, R25). -/
def compareFlag (x m : Byte) : BitVec 1 := if x = m then 0 else 1

/-- "zFlag truthy": the flag is 1 (R215, D28). -/
def flagSet (z : BitVec 1) : Bool := z == 1

/-- The sum of ADC, exact for every accumulator value at most 0xFF (R200, R201). -/
def adcSum (acc : AccWord) (m : Byte) : AccWord := acc + byteToAcc m

/-- The sum of ADC exceeds 0xFF, computed exactly (R200). -/
def adcOverflows (acc : AccWord) (m : Byte) : Bool := decide (0xFF < acc.toNat + m.toNat)

end Sys2Proof.Machine
end

