-- ==== Sys2Proof/Machine/Arithmetic.lean ====
section
/-! DEFINITION. Arithmetic, compare and increment (42_arithmetic_and_compare). -/

namespace Sys2Proof.Machine

/-- Stage 3, second pass, of ADC: acc takes the unwrapped sum, and a sum above 0xFF stops the machine with `step` still
at stage 3 (R200, R150). -/
def State.passAdc (s : State) : State :=
  let (m, r) := s.absolute
  let t := { r with acc := adcSum s.acc m }
  if adcOverflows s.acc m then t.raiseStop .accOverflow else t.setStep .writeback

/-- ADC: `acc <- acc + mem[hi:lo]`, or the stop `accOverflow` after six pulses (R200). -/
def execAdc (hi lo : Byte) (s : State) : Host.Outcome State Fault Refusal :=
  let g := s.issueAddress 0x6D hi lo
  .next (if adcOverflows g.acc g.absolute.1 then g.passAdc else g.passAdc.retire)

/-- Stage 3, second pass, of CPX (R202). -/
def State.passCpx (s : State) : State :=
  let (m, r) := s.absolute
  { r with zFlag := compareFlag s.xReg m, step := .writeback }

/-- CPX: `zFlag <- 0` if xReg equals `mem[hi:lo]`, else 1 (R202). -/
def execCpx (hi lo : Byte) (s : State) : Host.Outcome State Fault Refusal :=
  .next (s.issueAddress 0xEC hi lo).passCpx.retire

/-- Stage 3, second pass, of INC: a read whose value is not used (R203, D12); the work is in stage 4. -/
def State.passInc (s : State) : State := s.absolute.2.setStep .writeback

/-- INC: `mem[hi:lo] <- mem[hi:lo] + 1` modulo 256, done in stage 4 (R203). -/
def execInc (hi lo : Byte) (s : State) : Host.Outcome State Fault Refusal :=
  .next (s.issueAddress 0xEE hi lo).passInc.retire

end Sys2Proof.Machine
end

