-- ==== Sys2Proof/Machine/Branch.lean ====
section
/-! DEFINITION. The branch (43_branch). -/

namespace Sys2Proof.Machine

/-- Stage 3 of BNE: taken when zFlag is 1 (R215). -/
def State.passBne (s : State) : State :=
  { s with pc := if flagSet s.zFlag then s.branchTarget else s.pc, step := .writeback }

/-- BNE: `pc <- (pc + off8) mod 256` if zFlag is 1, pc being already past the operand byte (R215). -/
def execBne (off : Byte) (s : State) : Host.Outcome State Fault Refusal :=
  .next (s.issueOperand 0xD0 off).passBne.retire

end Sys2Proof.Machine
end

