-- ==== Sys2Proof/Machine/LoadStore.lean ====
section
/-! DEFINITION. Loads and stores (41_loads_and_stores): for each instruction the work of its last pass through stage 3
(`pass…`), and its meaning as a whole instruction (`exec…`). -/

namespace Sys2Proof.Machine

/-- Stage 3 of LDA# (R180). -/
def State.passLdaImm (s : State) : State := { s with acc := byteToAcc s.constant, step := .writeback }

/-- LDA#: `acc <- imm8` (R180). -/
def execLdaImm (imm : Byte) (s : State) : Host.Outcome State Fault Refusal :=
  .next (s.issueOperand 0xA9 imm).passLdaImm.retire

/-- Stage 3, second pass, of LDA (R181). -/
def State.passLda (s : State) : State :=
  let (m, r) := s.absolute
  { r with acc := byteToAcc m, step := .writeback }

/-- LDA: `acc <- mem[hi:lo]` (R181). -/
def execLda (hi lo : Byte) (s : State) : Host.Outcome State Fault Refusal :=
  .next (s.issueAddress 0xAD hi lo).passLda.retire

/-- Stage 3, second pass, of STA (R182). -/
def State.passSta (s : State) : State := (s.writeLatched s.accByte).setStep .writeback

/-- STA: `mem[hi:lo] <- acc[7:0]` (R182). -/
def execSta (hi lo : Byte) (s : State) : Host.Outcome State Fault Refusal :=
  .next (s.issueAddress 0x8D hi lo).passSta.retire

/-- Stage 3 of LDX# (R183). -/
def State.passLdxImm (s : State) : State := { s with xReg := s.constant, step := .writeback }

/-- LDX#: `xReg <- imm8` (R183). -/
def execLdxImm (imm : Byte) (s : State) : Host.Outcome State Fault Refusal :=
  .next (s.issueOperand 0xA2 imm).passLdxImm.retire

/-- Stage 3, second pass, of LDX (R184). -/
def State.passLdx (s : State) : State :=
  let (m, r) := s.absolute
  { r with xReg := m, step := .writeback }

/-- LDX: `xReg <- mem[hi:lo]` (R184). -/
def execLdx (hi lo : Byte) (s : State) : Host.Outcome State Fault Refusal :=
  .next (s.issueAddress 0xAE hi lo).passLdx.retire

/-- Stage 3 of LDY# (R185). -/
def State.passLdyImm (s : State) : State := { s with yReg := s.constant, step := .writeback }

/-- LDY#: `yReg <- imm8` (R185). -/
def execLdyImm (imm : Byte) (s : State) : Host.Outcome State Fault Refusal :=
  .next (s.issueOperand 0xA0 imm).passLdyImm.retire

/-- Stage 3, second pass, of LDY (R186). -/
def State.passLdy (s : State) : State :=
  let (m, r) := s.absolute
  { r with yReg := m, step := .writeback }

/-- LDY: `yReg <- mem[hi:lo]` (R186). -/
def execLdy (hi lo : Byte) (s : State) : Host.Outcome State Fault Refusal :=
  .next (s.issueAddress 0xAC hi lo).passLdy.retire

end Sys2Proof.Machine
end

