-- ==== Sys2Proof/Machine/System.lean ====
section
/-! DEFINITION. NOP, both forms of SYS, BRK, and the stop on an unknown opcode (44_system). -/

namespace Sys2Proof.Machine

/-- Stage 3 of NOP: advance only (R225). -/
def State.passNop (s : State) : State := s.setStep .writeback

/-- NOP (R225). -/
def execNop (s : State) : Host.Outcome State Fault Refusal :=
  .next (s.issueDirect 0xEA).passNop.retire

/-- Stage 3 of SYS with xReg = 1: emits yReg as a number (R227). -/
def State.passSysInt (s : State) : State := (s.emit (.int s.yReg)).setStep .writeback

/-- SYS, the one-byte form: with xReg = 1 it emits `Int(yReg)` (R227). Any other xReg is refused (R232; xReg = 2 selects
the three-byte form, R107). -/
def execSys (s : State) : Host.Outcome State Fault Refusal :=
  if s.xReg = 1 then .next (s.issueDirect 0xFF).passSysInt.retire else .refused .sysSelector

/-- One pass of the string loop once both latches are set: reads the byte at `irx:iry`; a zero byte ends the loop, any
other is emitted, the pointer moves on modulo 65536 and `stepCounter` is incremented (R229, D8, D9). -/
def State.stringPass (s : State) : State :=
  let (b, r) := s.absolute
  if b = 0 then r.setStep .writeback
  else { (r.emit (.char b)).setLatches (s.latched + 1) with stepCounter := s.stepCounter + 1 }

/-- Up to `n` passes of the string loop, ending early after the pass that reads a zero byte (R229). -/
def State.stringRun (n : Nat) (s : State) : State :=
  match n with
  | 0 => s
  | n + 1 =>
    let t := s.stringPass
    if t.step = .writeback then t else State.stringRun n t

/-- SYS, the three-byte form: with xReg = 2 it emits the zero-terminated string at `hi:lo`, one byte a pulse (R229). Where
no cell holds zero the loop has gone once round the 65536 cells and the instruction is still in stage 3, where it emits
for ever, one byte a pulse (R230, U8; DESIGN CHOICE, log entry 12). With another xReg it is refused (R232). -/
def execSysStr (hi lo : Byte) (s : State) : Host.Outcome State Fault Refusal :=
  if s.xReg = 2 then
    let t := (s.issueAddress 0xFF hi lo).stringRun Config.memorySize
    .next (if t.step = .writeback then t.retire else t)
  else .refused .sysSelector

/-- Stage 3 of BRK: asks the system to stop; stages 4 and 5 never run (R235). -/
def State.passBrk (s : State) : State := s.raiseStop .brk

/-- BRK: the stop `brk` at its fourth pulse (R235). -/
def execBrk (s : State) : Host.Outcome State Fault Refusal :=
  .next (s.issueDirect 0x00).passBrk

/-- What a byte outside the opcode table does at an instruction boundary: fetched, copied to ir, and stopped in stage 2
with `step` still 2; no operand byte is fetched (R237, R144, R150). -/
def State.stopUnknown (s : State) (b : Byte) : State :=
  ((s.latchFetch b).decodeOpcode).raiseStop .unknownOpcode

end Sys2Proof.Machine
end

