-- ==== Sys2Proof/Syntax.lean ====
section
/-! DEFINITION. The instruction set: the fourteen opcodes, their formats, and one constructor of `Instr` per row of
spec/opcode_table.json (30_encoding R100 to R104). The set is closed (R2). -/

namespace Sys2Proof

/-- The formats of R101. `sys` is one byte or three, by xReg at stage 2 (R107). -/
inductive Format where
  | impl
  | imm
  | rel
  | abs
  | sys
  deriving DecidableEq, Repr

/-- The fourteen opcodes of R104, under the spec's mnemonics (D15). -/
inductive Opcode where
  | ldaImm
  | lda
  | sta
  | adc
  | ldxImm
  | ldx
  | ldyImm
  | ldy
  | cpx
  | bne
  | inc
  | nop
  | sys
  | brk
  deriving DecidableEq, Repr

/-- An instruction with its operand bytes, one constructor per row of the opcode table.
`imm` is `imm8`, `off` is `off8`, `hi` and `lo` are the address bytes in fetch order, high byte first (R101, R102). -/
inductive Instr where
  | ldaImm (imm : Byte)
  | lda (hi lo : Byte)
  | sta (hi lo : Byte)
  | adc (hi lo : Byte)
  | ldxImm (imm : Byte)
  | ldx (hi lo : Byte)
  | ldyImm (imm : Byte)
  | ldy (hi lo : Byte)
  | cpx (hi lo : Byte)
  | bne (off : Byte)
  | inc (hi lo : Byte)
  | nop
  /-- The one-byte integer form of 0xFF, which xReg = 1 selects (R227). -/
  | sys
  /-- The three-byte string form of 0xFF, which xReg = 2 selects (R229). -/
  | sysStr (hi lo : Byte)
  | brk
  deriving DecidableEq, Repr

end Sys2Proof
end

