-- ==== Sys2Proof/Machine/Dispatch.lean ====
section
/-! DEFINITION. The meaning of each instruction, one arm per constructor of `Instr`. -/

namespace Sys2Proof.Machine

def exec (i : Instr) (s : State) : Host.Outcome State Fault Refusal :=
  match i with
  | .ldaImm imm => Sys2Proof.Machine.execLdaImm imm s
  | .lda hi lo => Sys2Proof.Machine.execLda hi lo s
  | .sta hi lo => Sys2Proof.Machine.execSta hi lo s
  | .adc hi lo => Sys2Proof.Machine.execAdc hi lo s
  | .ldxImm imm => Sys2Proof.Machine.execLdxImm imm s
  | .ldx hi lo => Sys2Proof.Machine.execLdx hi lo s
  | .ldyImm imm => Sys2Proof.Machine.execLdyImm imm s
  | .ldy hi lo => Sys2Proof.Machine.execLdy hi lo s
  | .cpx hi lo => Sys2Proof.Machine.execCpx hi lo s
  | .bne off => Sys2Proof.Machine.execBne off s
  | .inc hi lo => Sys2Proof.Machine.execInc hi lo s
  | .nop => Sys2Proof.Machine.execNop s
  | .sys => Sys2Proof.Machine.execSys s
  | .sysStr hi lo => Sys2Proof.Machine.execSysStr hi lo s
  | .brk => Sys2Proof.Machine.execBrk s

end Sys2Proof.Machine
end

