-- ==== Sys2Proof/Decode.lean ====
section
/-! DEFINITION. The decoder, total on any bytes and rejecting by name, and the encoder after it (30_encoding).
The length of SYS depends on xReg, so the decoder takes xReg as an argument (R107). -/

namespace Sys2Proof

/-- The opcode byte of each opcode (R104). -/
def Opcode.byte : Opcode → Byte
  | .ldaImm => 0xA9
  | .lda => 0xAD
  | .sta => 0x8D
  | .adc => 0x6D
  | .ldxImm => 0xA2
  | .ldx => 0xAE
  | .ldyImm => 0xA0
  | .ldy => 0xAC
  | .cpx => 0xEC
  | .bne => 0xD0
  | .inc => 0xEE
  | .nop => 0xEA
  | .sys => 0xFF
  | .brk => 0x00

/-- The format of each opcode (R101, R104). -/
def Opcode.format : Opcode → Format
  | .ldaImm => .imm
  | .lda => .abs
  | .sta => .abs
  | .adc => .abs
  | .ldxImm => .imm
  | .ldx => .abs
  | .ldyImm => .imm
  | .ldy => .abs
  | .cpx => .abs
  | .bne => .rel
  | .inc => .abs
  | .nop => .impl
  | .sys => .sys
  | .brk => .impl

/-- The whole opcode table, in the order of R104. -/
def opcodeTable : List Opcode :=
  [.ldaImm, .lda, .sta, .adc, .ldxImm, .ldx, .ldyImm, .ldy, .cpx, .bne, .inc, .nop, .sys, .brk]

/-- The opcode a byte names, by comparing the whole byte (R105); `none` for an unknown opcode (R106). -/
def Opcode.ofByte (b : Byte) : Option Opcode :=
  opcodeTable.find? (fun op => op.byte == b)

/-- The length in bytes that stage 2 gives an instruction from ir and xReg; `none` for an unknown opcode (R107). -/
def lengthOf (ir x : Byte) : Option Nat :=
  (Opcode.ofByte ir).map fun op =>
    match op.format with
    | .impl => 1
    | .imm => 2
    | .rel => 2
    | .abs => 3
    | .sys => if x = 2 then 3 else 1

/-- Why bytes are not an instruction. -/
inductive Reject where
  /-- The first byte is outside the opcode table (R106). -/
  | unknownOpcode (b : Byte)
  /-- The list ends before the last operand byte of `op`, or before its opcode byte (`none`). The hardware never meets
  this: it fetches byte by byte, and every address holds a byte. -/
  | truncated (op : Option Opcode)
  deriving DecidableEq, Repr

/-- Reads one operand byte (formats IMM and REL, R101). -/
def decodeOne (op : Opcode) (mk : Byte → Instr) : List Byte → Except Reject (Instr × List Byte)
  | b :: rest => .ok (mk b, rest)
  | [] => .error (.truncated (some op))

/-- Reads two operand bytes, high byte first (format ABS and the three-byte SYS, R101, R102). -/
def decodeTwo (op : Opcode) (mk : Byte → Byte → Instr) : List Byte → Except Reject (Instr × List Byte)
  | hi :: lo :: rest => .ok (mk hi lo, rest)
  | _ => .error (.truncated (some op))

/-- Reads the operand bytes of a known opcode (R101, R104); SYS reads two exactly when xReg is 2 (R107). -/
def decodeOperands (op : Opcode) (x : Byte) (rest : List Byte) : Except Reject (Instr × List Byte) :=
  match op with
  | .ldaImm => decodeOne op .ldaImm rest
  | .lda => decodeTwo op .lda rest
  | .sta => decodeTwo op .sta rest
  | .adc => decodeTwo op .adc rest
  | .ldxImm => decodeOne op .ldxImm rest
  | .ldx => decodeTwo op .ldx rest
  | .ldyImm => decodeOne op .ldyImm rest
  | .ldy => decodeTwo op .ldy rest
  | .cpx => decodeTwo op .cpx rest
  | .bne => decodeOne op .bne rest
  | .inc => decodeTwo op .inc rest
  | .nop => .ok (.nop, rest)
  | .sys => if x = 2 then decodeTwo op .sysStr rest else .ok (.sys, rest)
  | .brk => .ok (.brk, rest)

/-- The instruction at the head of `bytes` when xReg is `x`, and the bytes after it. -/
def decode (x : Byte) (bytes : List Byte) : Except Reject (Instr × List Byte) :=
  match bytes with
  | [] => .error (.truncated none)
  | b :: rest =>
    match Opcode.ofByte b with
    | none => .error (.unknownOpcode b)
    | some op => decodeOperands op x rest

/-- The opcode of an instruction (R104). -/
def Instr.opcode : Instr → Opcode
  | .ldaImm _ => .ldaImm
  | .lda _ _ => .lda
  | .sta _ _ => .sta
  | .adc _ _ => .adc
  | .ldxImm _ => .ldxImm
  | .ldx _ _ => .ldx
  | .ldyImm _ => .ldyImm
  | .ldy _ _ => .ldy
  | .cpx _ _ => .cpx
  | .bne _ => .bne
  | .inc _ _ => .inc
  | .nop => .nop
  | .sys => .sys
  | .sysStr _ _ => .sys
  | .brk => .brk

/-- The operand bytes of an instruction, in ascending address order (R100, R101). -/
def Instr.operands : Instr → List Byte
  | .ldaImm imm => [imm]
  | .lda hi lo => [hi, lo]
  | .sta hi lo => [hi, lo]
  | .adc hi lo => [hi, lo]
  | .ldxImm imm => [imm]
  | .ldx hi lo => [hi, lo]
  | .ldyImm imm => [imm]
  | .ldy hi lo => [hi, lo]
  | .cpx hi lo => [hi, lo]
  | .bne off => [off]
  | .inc hi lo => [hi, lo]
  | .nop => []
  | .sys => []
  | .sysStr hi lo => [hi, lo]
  | .brk => []

/-- The bytes of an instruction in ascending address order: opcode byte, then operand bytes (R100, R112). -/
def encode (i : Instr) : List Byte :=
  i.opcode.byte :: i.operands

/-- The number of bytes each row of the opcode table has (`length_bytes`). -/
def Instr.length : Instr → Nat
  | .ldaImm _ => 2
  | .lda _ _ => 3
  | .sta _ _ => 3
  | .adc _ _ => 3
  | .ldxImm _ => 2
  | .ldx _ _ => 3
  | .ldyImm _ => 2
  | .ldy _ _ => 3
  | .cpx _ _ => 3
  | .bne _ => 2
  | .inc _ _ => 3
  | .nop => 1
  | .sys => 1
  | .sysStr _ _ => 3
  | .brk => 1

/-- The three bytes of a table word, the first byte in bits 7..0; every bit from `nbits` on reads as 0. -/
def tableBytes (nbits w : Nat) : List Byte :=
  let v := w % 2 ^ nbits
  [BitVec.ofNat 8 v, BitVec.ofNat 8 (v / 2 ^ 8), BitVec.ofNat 8 (v / 2 ^ 16)]

/-- The value of xReg under which a table word is read: the two rows of 0xFF have the same first byte and are told
apart by their length, one byte (xReg = 1) or three (xReg = 2) (R107). DESIGN CHOICE, log entry 4. -/
def tableSelector (nbits : Nat) : Byte :=
  if nbits ≤ 8 then 1 else 2

/-- The instruction the decoder reads from a word of the opcode table. -/
def decodeTableWord (nbits w : Nat) : Option Instr :=
  match decode (tableSelector nbits) (tableBytes nbits w) with
  | .ok (i, _) => some i
  | .error _ => none

end Sys2Proof
end

