-- ==== Sys2Proof/Machine/Pipeline.lean ====
section
/-! DEFINITION. The CPU's pulse: exactly one stage per pulse (40_clock_and_pipeline R140 to R150). Stage 3 calls the same
passes that the meanings of whole instructions are made of. -/

namespace Sys2Proof.Machine

/-- Stage 2, DECODE-OPERAND: no-operand opcodes advance directly, the others fetch one operand byte, SYS by xReg, and a
byte outside the table stops the machine with `step` still 2 (R144, R150). -/
def State.decodeOperand (s : State) : State :=
  match Opcode.ofByte s.ir with
  | none => s.raiseStop .unknownOpcode
  | some op =>
    match op.format with
    | .impl => s.setStep .execute
    | .sys => if s.xReg = 2 then s.fetchRoutine else s.setStep .execute
    | .imm => s.fetchRoutine
    | .rel => s.fetchRoutine
    | .abs => s.fetchRoutine

/-- Stage 3 of a two-byte-address opcode: the first pass, told by `stepCounter` being 3, keeps the high byte and goes
back to stage 2; a later pass keeps the low byte and does the instruction's own work (R147). -/
def State.twoPass (s : State) (access : State → State) : State :=
  if s.stepCounter = 3 then s.latchHigh else access s.latchLow

/-- Stage 3 of SYS with xReg = 2: the first pass as for every address; only the pass with `stepCounter` 4 latches the low
byte, and every pass from that one on reads one byte of the string (R229). -/
def State.passSysString (s : State) : State :=
  if s.stepCounter = 3 then s.latchHigh
  else if s.stepCounter = 4 then s.latchLow.stringPass
  else s.stringPass

/-- Stage 3 of SYS, dispatching on xReg (R226); a value outside 1 and 2 is refused (R232). -/
def State.passSys (s : State) : Host.Outcome State Fault Refusal :=
  if s.xReg = 1 then .next s.passSysInt
  else if s.xReg = 2 then .next s.passSysString
  else .refused .sysSelector

/-- Stage 3, EXECUTE, dispatching on ir (R145). -/
def State.execute (s : State) : Host.Outcome State Fault Refusal :=
  match Opcode.ofByte s.ir with
  | none => .refused .executeUnknownIr
  | some .ldaImm => .next s.passLdaImm
  | some .lda => .next (s.twoPass State.passLda)
  | some .sta => .next (s.twoPass State.passSta)
  | some .adc => .next (s.twoPass State.passAdc)
  | some .ldxImm => .next s.passLdxImm
  | some .ldx => .next (s.twoPass State.passLdx)
  | some .ldyImm => .next s.passLdyImm
  | some .ldy => .next (s.twoPass State.passLdy)
  | some .cpx => .next (s.twoPass State.passCpx)
  | some .bne => .next s.passBne
  | some .inc => .next (s.twoPass State.passInc)
  | some .nop => .next s.passNop
  | some .sys => s.passSys
  | some .brk => .next s.passBrk

/-- The accumulator is in the range that every state without a stop has (R22). -/
def State.accInRange (s : State) : Bool := decide (s.acc.toNat ≤ 0xFF)

/-- The logic of the stage that `step` selects (R140). -/
def State.runStage (s : State) : Host.Outcome State Fault Refusal :=
  match s.step with
  | .fetch => .next s.fetchRoutine
  | .decodeOpcode => .next s.decodeOpcode
  | .decodeOperand => .next s.decodeOperand
  | .execute => s.execute
  | .writeback => .next s.writeback
  | .interruptCheck => .next s.interruptCheck

/-- The CPU's pulse: nothing after a stop (D5), else exactly one stage (R140). A state with acc above 0xFF and no stop has
no meaning (U22). -/
def State.cpuPulse (s : State) : Host.Outcome State Fault Refusal :=
  if s.halted.isSome then .next s
  else if s.accInRange then s.runStage
  else .refused .accOutOfRange

end Sys2Proof.Machine
end

