-- ==== Sys2Proof/Machine/Clock.lean ====
section
/-! DEFINITION. The Clock: listeners, starting and stopping, and the tick that pulses each listener once in registration
order (40_clock_and_pipeline R130 to R136). -/

namespace Sys2Proof.Machine

/-- Goes on from a next state, and ends at a fault or a refusal. -/
def andThen (o : Host.Outcome State Fault Refusal) (f : State → Host.Outcome State Fault Refusal) :
    Host.Outcome State Fault Refusal :=
  match o with
  | .next s => f s
  | .fault r => .fault r
  | .refused r => .refused r

/-- The listener a component is, if it exposes a pulse operation: CPU, Memory and InterruptController do (R130, R131). -/
def Component.listener : Component → Option Listener
  | .cpu => some .cpu
  | .memory => some .memory
  | .controller => some .controller
  | .mmu => none
  | .clock => none
  | .device _ => none

/-- `addListener(l)`: appends a component that has a pulse operation; any other is turned away with a log call and
nothing else changes (R131). -/
def State.addListener (s : State) (c : Component) : State :=
  match c.listener with
  | some l => { s with listeners := s.listeners ++ [l] }
  | none => { s with log := s.log ++ [.rejectedListener c] }

/-- `start()`: the Clock runs; no effect if it already does (R132, D17). -/
def State.start (s : State) : State := { s with running := true }

/-- `stop()`: the Clock does not run; no effect if it already does not (R133). -/
def State.stop (s : State) : State := { s with running := false }

/-- One listener's pulse: only the CPU's changes anything (R140); Memory's and the controller's do not (R84, R268). -/
def State.pulse (s : State) (l : Listener) : Host.Outcome State Fault Refusal :=
  match l with
  | .cpu => s.cpuPulse
  | .memory => .next s
  | .controller => .next s

/-- Pulses each listener of a list once, in order (R134). -/
def State.pulseAll (ls : List Listener) (s : State) : Host.Outcome State Fault Refusal :=
  match ls with
  | [] => .next s
  | l :: rest => andThen (s.pulse l) (State.pulseAll rest)

/-- `sendPulse` over the registered listeners (R134). -/
def State.sendPulse (s : State) : Host.Outcome State Fault Refusal := State.pulseAll s.listeners s

/-- One interval of the Clock: a tick fires only while it runs; while it does not, every block keeps its state
(R134, R288). -/
def State.tick (s : State) : Host.Outcome State Fault Refusal :=
  if s.running then s.sendPulse else .next s

/-- `n` ticks one after another, with nothing from outside between them. -/
def State.runTicks (n : Nat) (s : State) : Host.Outcome State Fault Refusal :=
  match n with
  | 0 => .next s
  | n + 1 => andThen s.tick (State.runTicks n)

end Sys2Proof.Machine
end

