-- ==== Sys2Proof/Machine/Environment.lean ====
section
/-! DEFINITION. What devices and the host do to the machine between ticks (00_scope R6, 40 R135, 60 R256 to R258,
70 R300 to R311). -/

namespace Sys2Proof.Machine

/-- The loader: each (architectural address, byte) pair stored through `writeImmediate`, in list order (R310). -/
def State.load (s : State) (program : List (Addr × Byte)) : State :=
  match program with
  | [] => s
  | (a, b) :: rest => State.load (s.writeImmediate (.int a) b) rest

/-- Re-creation of the CORE: every block is as after creation (R300, D26). The spec leaves open whether the external
devices, which live "for the process lifetime" (R256), outlive it: here they do not, `deviceTable` is emptied too and the
host creates its devices anew. What is still scheduled from outside stays scheduled. Both are DESIGN CHOICE, log entry
20. -/
def State.recreate (s : State) : State := { State.reset with inputs := s.inputs }

/-- One action from outside. A round of pulses delivered by hand can be refused as a tick can; no other action can. -/
def State.act (s : State) (a : Action) : Host.Outcome State Fault Refusal :=
  match a with
  | .pushInput d v => .next (s.push d .input v)
  | .pushOutput d v => .next (s.push d .output v)
  | .acceptInterrupt d => .next (s.acceptInterrupt d)
  | .createDevice name irq priority => .next (s.createDevice name irq priority)
  | .addDevice d => .next (s.addDevice d)
  | .addListener c => .next (s.addListener c)
  | .start => .next s.start
  | .stop => .next s.stop
  | .sendPulse => s.sendPulse
  | .memoryReset => .next s.memoryReset
  | .store a b => .next (s.writeImmediate (.int a) b)
  | .rawStore i b => .next (s.rawWrite i b)
  | .recreate => .next s.recreate

/-- Actions from outside, in order. -/
def State.actAll (as : List Action) (s : State) : Host.Outcome State Fault Refusal :=
  match as with
  | [] => .next s
  | a :: rest => andThen (s.act a) (State.actAll rest)

/-- The host's boot in the order of R311: register the three listeners, create and register the devices (name, IRQ
number, priority), load the program, start the Clock. -/
def bootActions (devs : List (String × Nat × Int)) (program : List (Addr × Byte)) : List Action :=
  [.addListener .cpu, .addListener .memory, .addListener .controller]
    ++ devs.map (fun d => .createDevice d.1 d.2.1 d.2.2)
    ++ (List.range devs.length).map .addDevice
    ++ program.map (fun p => .store p.1 p.2)
    ++ [.start]

end Sys2Proof.Machine
end

