-- ==== Sys2Proof/Machine/Fetch.lean ====
section
/-! DEFINITION. Finding the instruction at pc, running it whole, and placing an instruction where the next step fetches
it. `Step.lean` only calls these. -/

namespace Sys2Proof.Machine

/-- The three bytes at pc, pc + 1 and pc + 2 modulo 256, the longest an instruction can be (R100, R218). -/
def State.bytesAtPc (s : State) : List Byte :=
  [s.byteAt (fetchAddr s.pc), s.byteAt (fetchAddr (s.pc + 1)), s.byteAt (fetchAddr (s.pc + 2))]

/-- The instruction at pc, or why there is none (R107). -/
def State.decodeNext (s : State) : Except Reject (Instr × List Byte) := decode s.xReg s.bytesAtPc

/-- A tick is one pulse of a working CPU: the Clock runs, the CPU is registered once, nothing has stopped it (R311). -/
def State.live (s : State) : Bool :=
  s.running && s.listeners.count .cpu == 1 && s.halted.isNone && s.accInRange

/-- The CPU is at an instruction boundary, about to run stage 0, and the next ticks will take it through a whole
instruction (R152). -/
def State.ready (s : State) : Bool :=
  s.live && s.step == .fetch && s.stepCounter == 0

/-- The whole instruction at pc, or the stop on an unknown opcode (R237). The last arm is never taken: three bytes hold
any instruction. -/
def State.runInstruction (s : State) : Host.Outcome State Fault Refusal :=
  match s.decodeNext with
  | .ok (i, _) => exec i s
  | .error (.unknownOpcode b) => .next (s.stopUnknown b)
  | .error (.truncated _) => s.tick

/-- Stores bytes at consecutive code addresses from `p` on, modulo 256, in raw mode, so that MAR and MDR do not change. -/
def State.placeBytes (s : State) (p : Byte) (bytes : List Byte) : State :=
  match bytes with
  | [] => s
  | b :: rest => State.placeBytes (s.rawWrite (cellIndex (fetchAddr p)) b) (p + 1) rest

/-- The state in which the host has booted the CORE and nothing else is scheduled: the Clock runs over the three
listeners, the CPU is at an instruction boundary and no stop has been raised (R311). DESIGN CHOICE, log entry 3. -/
def State.booted (s : State) : State :=
  { s with
    running := true, listeners := [.cpu, .memory, .controller], inputs := [], halted := none, stopCalls := 0,
    acc := if s.accInRange then s.acc else 0, step := .fetch, stepCounter := 0 }

/-- The value xReg must have for a placed table word to be fetched as that row: SYS needs 1 or 2 by its length, every
other instruction leaves xReg as it is (R107). DESIGN CHOICE, log entry 4. -/
def State.selectForm (s : State) (nbits w : Nat) : State :=
  if BitVec.ofNat 8 (w % 2 ^ nbits) = Opcode.byte .sys then { s with xReg := tableSelector nbits } else s

/-- The whole of what placing a table word at pc takes. -/
def State.placeWord (s : State) (nbits w : Nat) : State :=
  (s.booted.selectForm nbits w).placeBytes s.pc (tableBytes nbits w)

end Sys2Proof.Machine
end

