-- ==== Sys2Proof/Machine/Step.lean ====
section
/-! DEFINITION. The step. While actions from outside are scheduled, a step is what is scheduled before the next tick and
then that one tick (R135). When nothing more is scheduled, a step from an instruction boundary is the whole instruction,
which is as many ticks as R330 gives it, and a step from anywhere else is one tick. DESIGN CHOICE, log entry 1. -/

namespace Sys2Proof.Machine

/-- One step. -/
def step (s : State) : Host.Outcome State Fault Refusal :=
  match s.inputs with
  | [] => if s.ready then s.runInstruction else s.tick
  | slot :: rest => andThen (State.actAll slot { s with inputs := rest }) State.tick

/-- `s` with the instruction of a table word stored at pc, booted so that the very next step runs it (log entry 3). -/
def State.withFetchWord (s : State) (nbits w : Nat) : State := s.placeWord nbits w

end Sys2Proof.Machine
end

