-- ==== Sys2Proof/WellFormed.lean ====
section
/-! DEFINITION. Which instructions are well formed. Every value of every operand byte is legal (R102), so the operand
types already admit exactly the legal operands; the one thing left to check is that a form of SYS stands where xReg
selects it (R107, R226, R232). -/

namespace Sys2Proof

/-- The instruction is one the hardware gives a meaning to when it is met with xReg equal to `x`. -/
def Instr.wellFormed (x : Byte) (i : Instr) : Bool :=
  match i with
  | .ldaImm _ => true
  | .lda _ _ => true
  | .sta _ _ => true
  | .adc _ _ => true
  | .ldxImm _ => true
  | .ldx _ _ => true
  | .ldyImm _ => true
  | .ldy _ _ => true
  | .cpx _ _ => true
  | .bne _ => true
  | .inc _ _ => true
  | .nop => true
  | .sys => x == 1
  | .sysStr _ _ => x == 2
  | .brk => true

end Sys2Proof
end

