-- ==== Sys2Proof/Safety.lean ====
section
/-! DEFINITION. The terms that claims about runs are stated in: the invariant of every reachable state, the number of
pulses of an instruction, and what of the state a program can see. -/

namespace Sys2Proof.Machine

/-! ## The invariant -/

/-- The instruction in ir gathers two operand bytes: an ABS opcode, or SYS with xReg = 2 (R144, R147). -/
def State.takesAddress (s : State) : Bool :=
  match (Opcode.ofByte s.ir).map Opcode.format with
  | some .abs => true
  | some .sys => s.xReg == 2
  | _ => false

/-- `stepCounter` in stage 3, by the format of the opcode in ir (R30, R151): 2 with no operand, 3 after one operand byte,
3 or 4 on the two passes of an address, and from 3 on in the string form of SYS. -/
def State.executeCounter (s : State) : Bool :=
  match (Opcode.ofByte s.ir).map Opcode.format with
  | none => false
  | some .impl => s.stepCounter == 2
  | some .imm => s.stepCounter == 3
  | some .rel => s.stepCounter == 3
  | some .abs => s.stepCounter == 3 || s.stepCounter == 4
  | some .sys => if s.xReg = 2 then decide (3 ≤ s.stepCounter) else s.stepCounter == 2

/-- `stepCounter` in stages 4 and 5: as after the last pass of stage 3 (R151); BRK never gets there (R235). -/
def State.finishCounter (s : State) : Bool :=
  match (Opcode.ofByte s.ir).map Opcode.format with
  | none => false
  | some .impl => s.stepCounter == 2 && s.ir != 0x00
  | some .imm => s.stepCounter == 3
  | some .rel => s.stepCounter == 3
  | some .abs => s.stepCounter == 4
  | some .sys => if s.xReg = 2 then decide (4 ≤ s.stepCounter) else s.stepCounter == 2

/-- `step` and `stepCounter` are a pair that R151 lists for the opcode in ir, and stage 3 and later are reached only by an
opcode of the table (R145). -/
def State.controlOk (s : State) : Bool :=
  match s.step with
  | .fetch => s.stepCounter == 0
  | .decodeOpcode => s.stepCounter == 1
  | .decodeOperand => s.stepCounter == 2 || (s.stepCounter == 3 && s.takesAddress)
  | .execute => s.executeCounter
  | .writeback => s.finishCounter
  | .interruptCheck => s.finishCounter

/-- The accumulator's bound, the number of stopSystem signals and what a stop leaves recorded (R22, R150, R251, R255). -/
def State.stopOk (s : State) : Bool :=
  match s.halted with
  | none => decide (s.acc.toNat ≤ 0xFF) && s.stopCalls == 0
  | some .brk =>
    decide (s.acc.toNat ≤ 0xFF) && s.stopCalls == 1 && s.step == .execute && s.stepCounter == 2 && s.ir == 0x00
  | some .accOverflow =>
    decide (0xFF < s.acc.toNat) && decide (s.acc.toNat ≤ 0x1FE) && s.stopCalls == 1 && s.step == .execute
      && s.stepCounter == 4 && s.ir == 0x6D
  | some .unknownOpcode =>
    decide (s.acc.toNat ≤ 0xFF) && s.stopCalls == 1 && s.step == .decodeOperand && s.stepCounter == 2
      && (Opcode.ofByte s.ir).isNone

/-- The pending queue falls in priority from head to tail (R37, R265). -/
def queueSorted (q : List Pending) : Bool :=
  match q with
  | [] => true
  | p :: rest => rest.all (fun r => decide (r.priority ≤ p.priority)) && queueSorted rest

/-- Every reference names a device that exists, and a pending entry carries that device's priority (R37, R38, R264). -/
def State.referencesOk (s : State) : Bool :=
  s.queue.all (fun p => (s.deviceTable[p.device]?).map Device.priority == some p.priority)
    && s.devices.all (fun d => decide (d < s.deviceTable.length))

/-- The string form never emits a zero byte (R32, R229). -/
def State.outOk (s : State) : Bool := s.out.all (fun item => item != .char 0)

/-- What holds of every state a run reaches. -/
structure State.Inv (s : State) : Prop where
  memory : Memory.wf s.mem = true
  control : s.controlOk = true
  stops : s.stopOk = true
  sorted : queueSorted s.queue = true
  references : s.referencesOk = true
  output : s.outOk = true

/-! ## An instruction about to run, and its length in pulses -/

/-- The machine is at an instruction boundary and the bytes at pc are those of `i` (R107, R152). -/
def State.atInstr (s : State) (i : Instr) : Prop :=
  s.ready = true ∧ ∃ rest, s.decodeNext = .ok (i, rest)

/-- How many non-zero bytes stand from `p` on before the first zero byte, counting at most `n` (R229). -/
def State.stringLength (s : State) (p : Addr) (n : Nat) : Nat :=
  match n with
  | 0 => 0
  | n + 1 => if s.byteAt p = 0 then 0 else State.stringLength s (p + 1) n + 1

/-- The pulses of R330, from the one that fetches the opcode to the last one the instruction has. -/
def pulseCount (i : Instr) (s : State) : Nat :=
  match i with
  | .ldaImm _ => 6
  | .lda _ _ => 8
  | .sta _ _ => 8
  | .adc hi lo => if adcOverflows s.acc (s.byteAt (pairAddr hi lo)) then 6 else 8
  | .ldxImm _ => 6
  | .ldx _ _ => 8
  | .ldyImm _ => 6
  | .ldy _ _ => 8
  | .cpx _ _ => 8
  | .bne _ => 6
  | .inc _ _ => 8
  | .nop => 6
  | .sys => 6
  | .sysStr hi lo => s.stringLength (pairAddr hi lo) Config.memorySize + 8
  | .brk => 4

/-! ## What a program can see -/

/-- The state without what only devices, the controller and the log hold. -/
def State.programView (s : State) : State :=
  { s with queue := [], devices := [], deviceTable := [], log := [] }

/-- An outcome with its next state replaced. -/
def mapNext (f : State → State) (o : Host.Outcome State Fault Refusal) : Host.Outcome State Fault Refusal :=
  andThen o (fun s => .next (f s))

/-- The actions of devices and of the host on devices (R257, R258, R263). -/
def Action.ofDevice : Action → Bool
  | .pushInput _ _ => true
  | .pushOutput _ _ => true
  | .acceptInterrupt _ => true
  | .createDevice _ _ _ => true
  | .addDevice _ => true
  | .addListener _ => false
  | .start => false
  | .stop => false
  | .sendPulse => false
  | .memoryReset => false
  | .store _ _ => false
  | .rawStore _ _ => false
  | .recreate => false

end Sys2Proof.Machine
end

