-- ==== Sys2Proof/Certificates/Slice0/Obligations.lean ====
section
/-! DEFINITION. The statements for the provers. Each docstring says which rule of spec/ it formalises. -/

open Sys2Proof Sys2Proof.Machine

/-! ## Reset and the invariant -/

/-- What every piece of state holds after creation, by the table of R42. The values of Memory, MAR, MDR and `running` are the
source's; those of the CPU registers and of `out` are the spec's decision D4, `halted` its decision D5; the empty queue,
registry and listeners are rows that R42 marks as derived, the spec's own inference. `deviceTable` is no row of R42: that no
device exists is the model's DESIGN CHOICE, log entry 5. -/
def Obligations.ResetHoldsTableValues : Prop :=
  (∀ a, State.reset.byteAt a = 0x00) ∧ State.reset.mar = 0x0000 ∧ State.reset.mdr = 0x00 ∧ State.reset.pc = 0x00 ∧
  State.reset.step = .fetch ∧ State.reset.stepCounter = 0 ∧ State.reset.acc = 0x00 ∧ State.reset.xReg = 0x00 ∧
  State.reset.yReg = 0x00 ∧ State.reset.zFlag = 0 ∧ State.reset.ir = 0x00 ∧ State.reset.opp = 0x00 ∧
  State.reset.irx = 0x00 ∧ State.reset.iry = 0x00 ∧ State.reset.halted = none ∧ State.reset.out = [] ∧
  State.reset.queue = [] ∧ State.reset.devices = [] ∧ State.reset.deviceTable = [] ∧ State.reset.listeners = [] ∧
  State.reset.running = false

/-- The invariant holds right after creation. -/
def Obligations.InvariantHoldsAtReset : Prop := State.reset.Inv

/-- Every step from a state with the invariant leads to a state with it: canonical memory, `step` and `stepCounter` as
R151 lists them, the accumulator bound and the single stop signal, the queue order, valid references, no zero character
(R22, R30, R32, R37, R151, R251, R255, R265). -/
def Obligations.InvariantKeptByStep : Prop :=
  ∀ s t : State, s.Inv → step s = .next t → t.Inv

/-- From a state with the invariant the only step without a meaning is SYS with an unassigned selector (R232); stage 3
with a foreign ir and acc above 0xFF without a stop are never met (R22, R145, U22). -/
def Obligations.OnlySelectorIsRefused : Prop :=
  ∀ (s : State) (r : Refusal), s.Inv → step s = .refused r → r = .sysSelector

/-! ## Memory -/

/-- R64: `cell(a)` exchanges the two bytes; it is its own inverse and a bijection; the examples of the rule. -/
def Obligations.CellExchangesAddressBytes : Prop :=
  (∀ a : Addr, (cellIndex a).toNat = a.toNat % 256 * 256 + a.toNat / 256) ∧
  (∀ b0 b1 : Byte, cellIndex (pairAddr b0 b1) = pairAddr b1 b0) ∧
  (∀ a : Addr, cellIndex (cellIndex a) = a) ∧ Function.Bijective cellIndex ∧
  cellIndex 0x0000 = 0x0000 ∧ cellIndex 0x0001 = 0x0100 ∧ cellIndex 0x0040 = 0x4000 ∧ cellIndex 0x1234 = 0x3412 ∧
  cellIndex 0x00FF = 0xFF00 ∧ cellIndex 0xABAB = 0xABAB

/-- R63, R66: an integer sets MAR whole and a pair sets it to `b0:b1`; a read sets MAR, loads MDR from the selected cell,
returns MDR, and changes nothing else; both forms of an address do the same. -/
def Obligations.ReadLeavesMarAndMdr : Prop :=
  ∀ (s : State) (n a : Addr) (b0 b1 : Byte),
    s.setAddress (.int n) = { s with mar := n } ∧
    s.setAddress (.pair b0 b1) = { s with mar := pairAddr b0 b1 } ∧
    (pairAddr b0 b1).toNat = b0.toNat * 256 + b1.toNat ∧
    s.readImmediate (.int a) = { s with mar := a, mdr := Memory.read s.mem (cellIndex a).toNat } ∧
    s.readImmediate (.pair (hiByte a) (loByte a)) = s.readImmediate (.int a) ∧
    (s.readImmediate (.int a)).getMdr = s.byteAt a

/-- R67: a write sets MAR and MDR and the one selected cell, and changes nothing else; both forms of an address do the
same; what STA writes is `acc[7:0]`, which is acc in its range. -/
def Obligations.WriteChangesOneCell : Prop :=
  ∀ (s : State) (a : Addr) (v : Byte),
    s.writeImmediate (.int a) v = { s with mar := a, mdr := v, mem := (s.writeImmediate (.int a) v).mem } ∧
    s.writeImmediate (.pair (hiByte a) (loByte a)) v = s.writeImmediate (.int a) v ∧
    (∀ i : Addr, (s.writeImmediate (.int a) v).rawRead i = if i = cellIndex a then v else s.rawRead i) ∧
    s.passSta = (s.writeImmediate (.pair s.irx s.iry) (s.acc.setWidth 8)).setStep .writeback ∧
    (s.acc.toNat ≤ 0xFF → (s.acc.setWidth 8).toNat = s.acc.toNat)

/-- R69: what was written through a pair is read back through it, and a write changes what a read of another address
returns in no case (this half is the spec's own inference from R64). -/
def Obligations.WriteThenReadReturnsValue : Prop :=
  ∀ (s : State) (b0 b1 v : Byte),
    ((s.writeImmediate (.pair b0 b1) v).readImmediate (.pair b0 b1)).getMdr = v ∧
    ∀ a : Addr, a ≠ pairAddr b0 b1 →
      ((s.writeImmediate (.pair b0 b1) v).readImmediate (.int a)).getMdr = (s.readImmediate (.int a)).getMdr

/-- R70, R83: raw accesses go to the cell index itself and leave MAR and MDR unchanged; the cell that an immediate write
through `[b0, b1]` reaches is the raw index `b0:b1` only when the two bytes are equal. Memory's reset zeroes MAR, MDR and
every cell and touches nothing else. -/
def Obligations.RawModeAndMemoryReset : Prop :=
  ∀ (s : State) (i : Addr) (v b0 b1 : Byte),
    s.rawWrite i v = { s with mem := (s.rawWrite i v).mem } ∧
    (∀ j : Addr, (s.rawWrite i v).rawRead j = if j = i then v else s.rawRead j) ∧
    (s.writeImmediate (.pair b0 b1) v).rawRead (pairAddr b1 b0) = v ∧
    (cellIndex (pairAddr b0 b1) = pairAddr b0 b1 ↔ b0 = b1) ∧
    s.memoryReset = { s with mar := 0x0000, mdr := 0x00, mem := s.memoryReset.mem } ∧
    (∀ j : Addr, s.memoryReset.rawRead j = 0x00)

/-- R82: `memoryDump` gives one entry for each address of the inclusive range, the stored byte inside the array and the
placeholder outside it. -/
def Obligations.DumpListsInclusiveRange : Prop :=
  ∀ (s : State) (first last : Int),
    (s.memoryDump first last).length = (last + 1 - first).toNat ∧
    ∀ k : Nat, first + k ≤ last →
      (s.memoryDump first last)[k]? = some (first + k,
        if 0 ≤ first + k ∧ first + k < 65536 then .stored (s.rawRead (BitVec.ofInt 16 (first + k)))
        else .outside Config.dumpPlaceholder)

/-! ## Encoding -/

/-- Decoding an encoded well-formed instruction gives it back, with the bytes after it (R100, R101, R102, R104, R107). -/
def Obligations.DecodeOfEncode : Prop :=
  ∀ (i : Instr) (x : Byte) (rest : List Byte), i.wellFormed x = true → decode x (encode i ++ rest) = .ok (i, rest)

/-- Whatever decodes is the encoding of what it decodes to, so no bit of it is dropped (R101, R104). -/
def Obligations.EncodeOfDecode : Prop :=
  ∀ (x : Byte) (bytes rest : List Byte) (i : Instr), decode x bytes = .ok (i, rest) → bytes = encode i ++ rest

/-- R107: the length of an instruction from ir and xReg, and it is what the decoder consumes. -/
def Obligations.LengthFromOpcodeAndSelector : Prop :=
  (∀ ir x : Byte, lengthOf ir x =
    if ir ∈ ([0xEA, 0x00] : List Byte) then some 1
    else if ir = 0xFF then (if x = 0x02 then some 3 else some 1)
    else if ir ∈ ([0xA9, 0xA2, 0xA0, 0xD0] : List Byte) then some 2
    else if ir ∈ ([0xAD, 0x8D, 0x6D, 0xAE, 0xAC, 0xEC, 0xEE] : List Byte) then some 3
    else none) ∧
  (∀ (x b : Byte) (bytes rest : List Byte) (i : Instr), decode x (b :: bytes) = .ok (i, rest) →
    lengthOf b x = some ((b :: bytes).length - rest.length))

/-- R106: 242 byte values are outside the table, and each is rejected as that unknown opcode, whatever follows it. -/
def Obligations.UnknownBytesRejected : Prop :=
  ((List.range 256).filter (fun n => (Opcode.ofByte (BitVec.ofNat 8 n)).isNone)).length = 242 ∧
  ∀ (b x : Byte) (rest : List Byte), Opcode.ofByte b = none → decode x (b :: rest) = .error (.unknownOpcode b)

/-- R112: the encodings of one instruction of each format, and they decode to it (R112 is the spec's own inference from
R101 to R104). -/
def Obligations.SampleEncodingsDecode : Prop :=
  encode (.ldaImm 0x05) = [0xA9, 0x05] ∧ encode (.sta 0x00 0x40) = [0x8D, 0x00, 0x40] ∧
  encode (.adc 0x12 0x34) = [0x6D, 0x12, 0x34] ∧ encode (.bne 0x0A) = [0xD0, 0x0A] ∧ encode .nop = [0xEA] ∧
  encode .brk = [0x00] ∧ encode .sys = [0xFF] ∧ encode (.sysStr 0x00 0x20) = [0xFF, 0x00, 0x20] ∧
  decode 0 [0xA9, 0x05] = .ok (.ldaImm 0x05, []) ∧ decode 0 [0x8D, 0x00, 0x40] = .ok (.sta 0x00 0x40, []) ∧
  decode 0 [0x6D, 0x12, 0x34] = .ok (.adc 0x12 0x34, []) ∧ decode 0 [0xD0, 0x0A] = .ok (.bne 0x0A, []) ∧
  decode 0 [0xEA] = .ok (.nop, []) ∧ decode 0 [0x00] = .ok (.brk, []) ∧ decode 1 [0xFF] = .ok (.sys, []) ∧
  decode 2 [0xFF, 0x00, 0x20] = .ok (.sysStr 0x00 0x20, [])

/-! ## What each instruction does

Each result is the whole next state: every field that is not written out is as before, in particular every byte of memory
where `mem` is not written out. `serviceInterrupt` is the device half of stage 5, stated on its own further down. The
clause on `runTicks` says how many pulses the instruction takes. -/

/-- R180, R183, R185: LDA#, LDX#, LDY# put the constant in their register, write no flag and take 6 pulses. -/
def Obligations.LoadConstantResult : Prop :=
  ∀ (s : State) (imm : Byte),
    (exec (.ldaImm imm) s = .next (State.serviceInterrupt
      { s with acc := imm.setWidth 9, pc := s.pc + 2, ir := 0xA9, opp := imm, mar := fetchAddr (s.pc + 1), mdr := imm,
               step := .fetch, stepCounter := 0 })) ∧
    (exec (.ldxImm imm) s = .next (State.serviceInterrupt
      { s with xReg := imm, pc := s.pc + 2, ir := 0xA2, opp := imm, mar := fetchAddr (s.pc + 1), mdr := imm,
               step := .fetch, stepCounter := 0 })) ∧
    (exec (.ldyImm imm) s = .next (State.serviceInterrupt
      { s with yReg := imm, pc := s.pc + 2, ir := 0xA0, opp := imm, mar := fetchAddr (s.pc + 1), mdr := imm,
               step := .fetch, stepCounter := 0 })) ∧
    (s.atInstr (.ldaImm imm) → State.runTicks 6 s = exec (.ldaImm imm) s) ∧
    (s.atInstr (.ldxImm imm) → State.runTicks 6 s = exec (.ldxImm imm) s) ∧
    (s.atInstr (.ldyImm imm) → State.runTicks 6 s = exec (.ldyImm imm) s)

/-- R181, R184, R186: LDA, LDX, LDY put the byte at `hi:lo` in their register, leave MAR and MDR at that access, write no
flag and no memory, and take 8 pulses. -/
def Obligations.LoadMemoryResult : Prop :=
  ∀ (s : State) (hi lo : Byte),
    (exec (.lda hi lo) s = .next (State.serviceInterrupt
      { s with acc := (s.byteAt (pairAddr hi lo)).setWidth 9, pc := s.pc + 3, ir := 0xAD, opp := lo, irx := hi, iry := lo,
               mar := pairAddr hi lo, mdr := s.byteAt (pairAddr hi lo), step := .fetch, stepCounter := 0 })) ∧
    (exec (.ldx hi lo) s = .next (State.serviceInterrupt
      { s with xReg := s.byteAt (pairAddr hi lo), pc := s.pc + 3, ir := 0xAE, opp := lo, irx := hi, iry := lo,
               mar := pairAddr hi lo, mdr := s.byteAt (pairAddr hi lo), step := .fetch, stepCounter := 0 })) ∧
    (exec (.ldy hi lo) s = .next (State.serviceInterrupt
      { s with yReg := s.byteAt (pairAddr hi lo), pc := s.pc + 3, ir := 0xAC, opp := lo, irx := hi, iry := lo,
               mar := pairAddr hi lo, mdr := s.byteAt (pairAddr hi lo), step := .fetch, stepCounter := 0 })) ∧
    (s.atInstr (.lda hi lo) → State.runTicks 8 s = exec (.lda hi lo) s) ∧
    (s.atInstr (.ldx hi lo) → State.runTicks 8 s = exec (.ldx hi lo) s) ∧
    (s.atInstr (.ldy hi lo) → State.runTicks 8 s = exec (.ldy hi lo) s)

/-- R182: STA puts `acc[7:0]` in the byte at `hi:lo`; every other byte, acc and zFlag are as before; 8 pulses. -/
def Obligations.StoreAccumulatorResult : Prop :=
  ∀ (s : State) (hi lo : Byte),
    (∃ t, exec (.sta hi lo) s = .next t ∧
      t = State.serviceInterrupt
        { s with mem := t.mem, pc := s.pc + 3, ir := 0x8D, opp := lo, irx := hi, iry := lo, mar := pairAddr hi lo,
                 mdr := s.acc.setWidth 8, step := .fetch, stepCounter := 0 } ∧
      t.byteAt (pairAddr hi lo) = s.acc.setWidth 8 ∧
      (∀ a, a ≠ pairAddr hi lo → t.byteAt a = s.byteAt a)) ∧
    (s.atInstr (.sta hi lo) → State.runTicks 8 s = exec (.sta hi lo) s)

/-- R200: with acc in its range (R22), ADC adds the byte at `hi:lo` exactly when the sum is at most 0xFF, in 8 pulses;
above that it leaves the unwrapped sum in acc and stops with `accOverflow` at its 6th pulse, `step` still 3 and
`stepCounter` as the second pass found it (the spec's decision D6). zFlag and memory are as before. `stopCalls`, which
counts the one stop signal, is the model's own field: DESIGN CHOICE, log entry 9. -/
def Obligations.AddResult : Prop :=
  ∀ (s : State) (hi lo : Byte), s.acc.toNat ≤ 0xFF →
    (s.acc.toNat + (s.byteAt (pairAddr hi lo)).toNat ≤ 0xFF →
      exec (.adc hi lo) s = .next (State.serviceInterrupt
        { s with acc := BitVec.ofNat 9 (s.acc.toNat + (s.byteAt (pairAddr hi lo)).toNat), pc := s.pc + 3, ir := 0x6D,
                 opp := lo, irx := hi, iry := lo, mar := pairAddr hi lo, mdr := s.byteAt (pairAddr hi lo),
                 step := .fetch, stepCounter := 0 }) ∧
      (s.atInstr (.adc hi lo) → State.runTicks 8 s = exec (.adc hi lo) s)) ∧
    (0xFF < s.acc.toNat + (s.byteAt (pairAddr hi lo)).toNat →
      (∃ t, exec (.adc hi lo) s = .next t ∧ t.acc.toNat = s.acc.toNat + (s.byteAt (pairAddr hi lo)).toNat ∧
        t = { s with acc := t.acc, pc := s.pc + 3, ir := 0x6D, opp := lo, irx := hi, iry := lo, mar := pairAddr hi lo,
                     mdr := s.byteAt (pairAddr hi lo), step := .execute, stepCounter := s.stepCounter + 4,
                     halted := some .accOverflow, stopCalls := s.stopCalls + 1 }) ∧
      (s.atInstr (.adc hi lo) → State.runTicks 6 s = exec (.adc hi lo) s))

/-- R202: CPX sets zFlag to 0 when xReg equals the byte at `hi:lo` and to 1 when it differs; 8 pulses. -/
def Obligations.CompareResult : Prop :=
  ∀ (s : State) (hi lo : Byte),
    (exec (.cpx hi lo) s = .next (State.serviceInterrupt
      { s with zFlag := if s.xReg = s.byteAt (pairAddr hi lo) then 0 else 1, pc := s.pc + 3, ir := 0xEC, opp := lo,
               irx := hi, iry := lo, mar := pairAddr hi lo, mdr := s.byteAt (pairAddr hi lo), step := .fetch,
               stepCounter := 0 })) ∧
    (s.atInstr (.cpx hi lo) → State.runTicks 8 s = exec (.cpx hi lo) s)

/-- R203 (with the spec's decisions D7, the wrap, and D12, the unused read): INC adds 1 modulo 256 to the byte at `hi:lo`;
stage 3 only reads it, stage 4 re-reads, adds and writes back; every other byte and every general register is as before;
8 pulses. -/
def Obligations.IncrementResult : Prop :=
  (∀ (s : State) (hi lo : Byte),
    (∃ t, exec (.inc hi lo) s = .next t ∧
      t = State.serviceInterrupt
        { s with mem := t.mem, pc := s.pc + 3, ir := 0xEE, opp := lo, irx := hi, iry := lo, mar := pairAddr hi lo,
                 mdr := s.byteAt (pairAddr hi lo) + 1, step := .fetch, stepCounter := 0 } ∧
      t.byteAt (pairAddr hi lo) = s.byteAt (pairAddr hi lo) + 1 ∧
      (∀ a, a ≠ pairAddr hi lo → t.byteAt a = s.byteAt a)) ∧
    (s.atInstr (.inc hi lo) → State.runTicks 8 s = exec (.inc hi lo) s)) ∧
  (∀ s : State, s.passInc =
    { s with mar := pairAddr s.irx s.iry, mdr := s.byteAt (pairAddr s.irx s.iry), step := .writeback })

/-- R215: BNE adds the raw unsigned offset to pc modulo 256, pc being already past the operand byte, when zFlag is 1, and
leaves it there when zFlag is 0; 6 pulses either way. -/
def Obligations.BranchResult : Prop :=
  ∀ (s : State) (off : Byte),
    (exec (.bne off) s = .next (State.serviceInterrupt
      { s with pc := if s.zFlag = 1 then BitVec.ofNat 8 (s.pc.toNat + 2 + off.toNat) else s.pc + 2, ir := 0xD0, opp := off,
               mar := fetchAddr (s.pc + 1), mdr := off, step := .fetch, stepCounter := 0 })) ∧
    (s.atInstr (.bne off) → State.runTicks 6 s = exec (.bne off) s)

/-- R216: with the flag set, the offset `(T - (A + 2)) mod 256` takes a BNE at A to T, whatever A and T are, and reading
the offset as signed would select the same target (R216 is the spec's own inference from R215 and R24). -/
def Obligations.BranchReachesEveryTarget : Prop :=
  (∀ (s : State) (target : Byte), s.zFlag = 1 →
    ∃ t, exec (.bne (target - (s.pc + 2))) s = .next t ∧ t.pc = target) ∧
  (∀ pc off : Byte, BitVec.ofInt 8 (pc.toNat + off.toInt) = BitVec.ofNat 8 (pc.toNat + off.toNat))

/-- R225: NOP changes nothing but pc, ir, opp, MAR, MDR, `step` and `stepCounter`, and a pending device is still serviced;
6 pulses. -/
def Obligations.NoOperationResult : Prop :=
  ∀ s : State,
    (exec .nop s = .next (State.serviceInterrupt
      { s with pc := s.pc + 1, ir := 0xEA, opp := 0xEA, mar := fetchAddr s.pc, mdr := 0xEA, step := .fetch,
               stepCounter := 0 })) ∧
    (s.atInstr .nop → State.runTicks 6 s = exec .nop s)

/-- R227: SYS with xReg = 1 appends the number yReg to the output, consumes no operand byte and changes no general
register; 6 pulses. -/
def Obligations.SysIntegerResult : Prop :=
  ∀ s : State, s.xReg = 0x01 →
    (exec .sys s = .next (State.serviceInterrupt
      { s with out := s.out ++ [.int s.yReg], pc := s.pc + 1, ir := 0xFF, opp := 0xFF, mar := fetchAddr s.pc, mdr := 0xFF,
               step := .fetch, stepCounter := 0 })) ∧
    (s.atInstr .sys → State.runTicks 6 s = exec .sys s)

/-- R229 (with the spec's decisions D8 and D9): one pulse of the string form in stage 3. The pass with `stepCounter` 3 keeps the high byte and goes back to
stage 2; only the pass with 4 keeps the low byte; every pass from there reads one byte at the pointer, a zero byte ends the
loop, any other is emitted, moves the pointer on modulo 65536 and increments `stepCounter`. -/
def Obligations.SysStringPulse : Prop :=
  ∀ s : State, s.halted = none → s.acc.toNat ≤ 0xFF → s.step = .execute → s.ir = 0xFF → s.xReg = 0x02 →
    (s.stepCounter = 3 → s.cpuPulse = .next { s with irx := s.opp, step := .decodeOperand }) ∧
    (s.stepCounter ≠ 3 → ∀ u : State, u = (if s.stepCounter = 4 then { s with iry := s.opp } else s) →
      (u.byteAt (pairAddr u.irx u.iry) = 0 →
        s.cpuPulse = .next { u with mar := pairAddr u.irx u.iry, mdr := 0, step := .writeback }) ∧
      (u.byteAt (pairAddr u.irx u.iry) ≠ 0 →
        s.cpuPulse = .next
          { u with mar := pairAddr u.irx u.iry, mdr := u.byteAt (pairAddr u.irx u.iry),
                   out := s.out ++ [.char (u.byteAt (pairAddr u.irx u.iry))],
                   irx := hiByte (pairAddr u.irx u.iry + 1), iry := loByte (pairAddr u.irx u.iry + 1),
                   stepCounter := s.stepCounter + 1 }))

/-- R229, R231: SYS with xReg = 2 emits the k bytes from `hi:lo` up to the first zero byte, in order, without the zero byte,
leaves irx:iry at the zero byte, changes no general register, and takes k + 8 pulses (R231 is the spec's own inference
from R229). That one step runs the whole loop is the model's granularity, DESIGN CHOICE, log entry 1. -/
def Obligations.SysStringResult : Prop :=
  ∀ (s : State) (hi lo : Byte) (k : Nat), s.xReg = 0x02 → k < 65536 →
    (∀ j < k, s.byteAt (pairAddr hi lo + BitVec.ofNat 16 j) ≠ 0) → s.byteAt (pairAddr hi lo + BitVec.ofNat 16 k) = 0 →
    (exec (.sysStr hi lo) s = .next (State.serviceInterrupt
      { s with out := s.out ++ (List.range k).map (fun j => .char (s.byteAt (pairAddr hi lo + BitVec.ofNat 16 j))),
               pc := s.pc + 3, ir := 0xFF, opp := lo, irx := hiByte (pairAddr hi lo + BitVec.ofNat 16 k),
               iry := loByte (pairAddr hi lo + BitVec.ofNat 16 k), mar := pairAddr hi lo + BitVec.ofNat 16 k, mdr := 0,
               step := .fetch, stepCounter := 0 })) ∧
    (s.atInstr (.sysStr hi lo) → State.runTicks (k + 8) s = exec (.sysStr hi lo) s)

/-- R230 (4), the spec's own inference from R229: where no cell is zero, the string form never leaves stage 3: after n further ticks it has emitted n more
characters and is still there, and stage 5 is not reached, so the pending queue is as before. -/
def Obligations.UnterminatedStringNeverEnds : Prop :=
  ∀ (s : State) (n : Nat), (∀ a, s.byteAt a ≠ 0) → s.running = true → s.listeners.count .cpu = 1 → s.halted = none →
    s.acc.toNat ≤ 0xFF → s.step = .execute → s.ir = 0xFF → s.xReg = 0x02 → 5 ≤ s.stepCounter →
    ∃ t, State.runTicks n s = .next t ∧ t.step = .execute ∧ t.halted = none ∧ t.queue = s.queue ∧
      t.stepCounter = s.stepCounter + n ∧
      t.out = s.out ++ (List.range n).map (fun j => .char (s.byteAt (pairAddr s.irx s.iry + BitVec.ofNat 16 j))) ∧
      pairAddr t.irx t.iry = pairAddr s.irx s.iry + BitVec.ofNat 16 n

/-- R232 (the spec's decision D10): SYS with xReg outside 1 and 2 is refused, as the pulse of stage 3, and as an
instruction; that the refusal takes in the three pulses before it is the model's granularity, log entry 11. -/
def Obligations.SelectorOutsideRefused : Prop :=
  ∀ s : State, s.xReg ≠ 0x01 → s.xReg ≠ 0x02 →
    exec .sys s = .refused .sysSelector ∧ (∀ hi lo, exec (.sysStr hi lo) s = .refused .sysSelector) ∧
    (s.halted = none → s.acc.toNat ≤ 0xFF → s.step = .execute → s.ir = 0xFF → s.cpuPulse = .refused .sysSelector)

/-- R235: BRK stops the machine with reason `brk` at its 4th pulse: pc is past its byte, ir and opp are 0x00, MAR holds its
address, MDR 0x00, `step` is 3; all else is as before, and no device is serviced. `stopCalls`, which counts the one stop
signal, is the model's own field: DESIGN CHOICE, log entry 9. -/
def Obligations.BreakStops : Prop :=
  ∀ s : State,
    (exec .brk s = .next
      { s with pc := s.pc + 1, ir := 0x00, opp := 0x00, mar := fetchAddr s.pc, mdr := 0x00, step := .execute,
               stepCounter := s.stepCounter + 2, halted := some .brk, stopCalls := s.stopCalls + 1 }) ∧
    (s.atInstr .brk → State.runTicks 4 s = exec .brk s)

/-- R237: a byte outside the table, met at an instruction boundary, stops the machine with `unknownOpcode` at the 3rd
pulse: pc is past it, ir and opp hold it, `step` is 2, and nothing but MAR, MDR and `stepCounter` changes besides.
`stopCalls` counts the one stop signal: DESIGN CHOICE, log entry 9. -/
def Obligations.UnknownOpcodeStops : Prop :=
  ∀ (s : State) (b : Byte), s.ready = true → s.inputs = [] → s.byteAt (fetchAddr s.pc) = b → Opcode.ofByte b = none →
    step s = .next
      { s with pc := s.pc + 1, ir := b, opp := b, mar := fetchAddr s.pc, mdr := b, step := .decodeOperand, stepCounter := 2,
               halted := some .unknownOpcode, stopCalls := s.stopCalls + 1 } ∧
    State.runTicks 3 s = step s

/-- R21, over all instructions at once: acc is written by LDA#, LDA, ADC alone, xReg by LDX#, LDX, yReg by LDY#, LDY, zFlag
by CPX; besides, memory only by STA and INC, the output only by the forms of SYS, and the latches only by instructions
with an address. -/
def Obligations.OnlyTheListedInstructionsWrite : Prop :=
  ∀ (i : Instr) (s t : State), exec i s = .next t →
    (i.opcode ∉ [.ldaImm, .lda, .adc] → t.acc = s.acc) ∧ (i.opcode ∉ [.ldxImm, .ldx] → t.xReg = s.xReg) ∧
    (i.opcode ∉ [.ldyImm, .ldy] → t.yReg = s.yReg) ∧ (i.opcode ≠ .cpx → t.zFlag = s.zFlag) ∧
    (i.opcode ∉ [.sta, .inc] → t.mem = s.mem) ∧ (i.opcode ≠ .sys → t.out = s.out) ∧
    (i.opcode.format ≠ .abs → i.opcode ≠ .sys → t.irx = s.irx ∧ t.iry = s.iry) ∧
    t.devices = s.devices ∧ t.controllerDebug = s.controllerDebug ∧ t.listeners = s.listeners ∧
    t.running = s.running ∧ t.inputs = s.inputs

/-! ## The pipeline, pulse by pulse -/

/-- R140: exactly one stage's logic runs per pulse, by `step`; after a stop nothing does (the spec's decision D5). The
bound on acc is R22's: the model refuses a pulse outside it, log entry 10. -/
def Obligations.PulseRunsOneStage : Prop :=
  ∀ s : State,
    (s.halted ≠ none → s.cpuPulse = .next s) ∧
    (s.halted = none → s.acc.toNat ≤ 0xFF →
      (s.step = .fetch → s.cpuPulse = .next s.fetchRoutine) ∧
      (s.step = .decodeOpcode → s.cpuPulse = .next s.decodeOpcode) ∧
      (s.step = .decodeOperand → s.cpuPulse = .next s.decodeOperand) ∧
      (s.step = .execute → s.cpuPulse = s.execute) ∧
      (s.step = .writeback → s.cpuPulse = .next s.writeback) ∧
      (s.step = .interruptCheck → s.cpuPulse = .next s.interruptCheck))

/-- R142, R143: the fetch routine reads the byte at `zext_16(pc)` into opp, leaves MAR and MDR at that access, and
increments pc modulo 256, `step` (0 to 1 from stage 0, 2 to 3 from stage 2) and `stepCounter`; stage 1 copies opp into ir,
goes to stage 2 and increments `stepCounter` (the spec's decision D2). -/
def Obligations.FetchAndDecodeOpcodePulses : Prop :=
  ∀ s : State,
    s.fetchRoutine =
      { s with opp := s.byteAt (fetchAddr s.pc), mdr := s.byteAt (fetchAddr s.pc), mar := fetchAddr s.pc,
               pc := BitVec.ofNat 8 (s.pc.toNat + 1), step := s.fetchRoutine.step, stepCounter := s.stepCounter + 1 } ∧
    (fetchAddr s.pc).toNat = s.pc.toNat ∧
    (s.step = .fetch → s.fetchRoutine.step = .decodeOpcode) ∧ (s.step = .decodeOperand → s.fetchRoutine.step = .execute) ∧
    s.decodeOpcode = { s with ir := s.opp, step := .decodeOperand, stepCounter := s.stepCounter + 1 }

/-- R144: stage 2 by ir: 0xEA and 0x00 go straight to stage 3; 0xFF fetches an operand byte when xReg is 2 and goes straight
on otherwise; the other documented opcodes fetch one operand byte; any other value stops the machine. `stopCalls` counts
the one stop signal: DESIGN CHOICE, log entry 9. -/
def Obligations.DecodeOperandDispatch : Prop :=
  ∀ s : State, s.decodeOperand =
    if s.ir ∈ ([0xEA, 0x00] : List Byte) then { s with step := .execute }
    else if s.ir = 0xFF then (if s.xReg = 0x02 then s.fetchRoutine else { s with step := .execute })
    else if s.ir ∈ ([0xA9, 0xAD, 0x8D, 0x6D, 0xA2, 0xAE, 0xA0, 0xAC, 0xEC, 0xD0, 0xEE] : List Byte) then s.fetchRoutine
    else { s with halted := some .unknownOpcode, stopCalls := s.stopCalls + 1 }

/-- R147: for each of the seven two-byte-address opcodes, stage 3 with `stepCounter` 3 keeps the high byte and goes back to
stage 2, and otherwise keeps the low byte and does the instruction's own access. -/
def Obligations.AddressGatheredInTwoPasses : Prop :=
  ∀ s : State, s.ir ∈ ([0xAD, 0x8D, 0x6D, 0xAE, 0xAC, 0xEC, 0xEE] : List Byte) →
    (s.stepCounter = 3 → s.execute = .next { s with irx := s.opp, step := .decodeOperand }) ∧
    (s.stepCounter ≠ 3 → ∀ u : State, u = { s with iry := s.opp } →
      s.execute = .next
        (if s.ir = 0xAD then u.passLda else if s.ir = 0x8D then u.passSta else if s.ir = 0x6D then u.passAdc
         else if s.ir = 0xAE then u.passLdx else if s.ir = 0xAC then u.passLdy else if s.ir = 0xEC then u.passCpx
         else u.passInc))

/-- R148 (with the spec's decision D7, the wrap): stage 4 increments the byte at irx:iry modulo 256 when ir is 0xEE, leaving every other byte; for every other
opcode it only goes on to stage 5. -/
def Obligations.WritebackOnlyIncrements : Prop :=
  ∀ s : State,
    (s.ir ≠ 0xEE → s.writeback = { s with step := .interruptCheck }) ∧
    (s.ir = 0xEE → ∃ t, s.writeback = t ∧
      t = { s with mar := pairAddr s.irx s.iry, mdr := s.byteAt (pairAddr s.irx s.iry) + 1, mem := t.mem,
                   step := .interruptCheck } ∧
      (∀ a, t.byteAt a = if a = pairAddr s.irx s.iry then s.byteAt (pairAddr s.irx s.iry) + 1 else s.byteAt a))

/-- R149: stage 5 services an interrupt and sets `step` and `stepCounter` to 0; no other CPU register, flag, memory or output
changes. -/
def Obligations.InterruptCheckReturnsToFetch : Prop :=
  ∀ s : State, s.interruptCheck =
    { s with queue := s.serviceInterrupt.queue, deviceTable := s.serviceInterrupt.deviceTable,
             log := s.serviceInterrupt.log, step := .fetch, stepCounter := 0 }

/-- R330: the pulses from the one that fetches the opcode to that of stage 5, or to the stop, are those of the table: run
that many ticks from the boundary and the result is the instruction's. A string must end for its count to exist. R330 is
the spec's own inference from R151; that `exec` is the whole instruction at once is the model's granularity, DESIGN CHOICE,
log entry 1. -/
def Obligations.PulseCountsOfTheTable : Prop :=
  ∀ (s : State) (i : Instr), s.atInstr i → i.wellFormed s.xReg = true →
    ((∃ hi lo, i = .sysStr hi lo) → ∃ a, s.byteAt a = 0) →
    State.runTicks (pulseCount i s) s = exec i s

/-! ## The step and the ticks -/

/-- A step at an instruction boundary with nothing scheduled from outside runs the decoded instruction, with nothing around
it: `exec` includes the fetches, the stages and the pc's advance. DESIGN CHOICE, log entry 1. -/
def Obligations.StepRunsDecodedInstruction : Prop :=
  ∀ (s : State) (i : Instr), s.inputs = [] → s.atInstr i → i.wellFormed s.xReg = true → step s = exec i s

/-- Every step with nothing scheduled from outside is a run of one or more ticks of the Clock (R134, R140, R151): the
model's two granularities, DESIGN CHOICE, log entry 1, agree. -/
def Obligations.StepIsARunOfTicks : Prop :=
  ∀ s : State, s.inputs = [] → ∃ n, 1 ≤ n ∧ step s = State.runTicks n s

/-- While actions are scheduled, a step is what is scheduled before the next tick, in order, and then that one tick
(R135, D18; the schedule itself is the model's choice, log entry 2). -/
def Obligations.ScheduledActionsPrecedeOneTick : Prop :=
  ∀ (s u : State) (slot : List Action) (rest : List (List Action)), s.inputs = slot :: rest →
    State.actAll slot { s with inputs := rest } = .next u → step s = u.tick

/-- A table word placed by `withFetchWord` is what the very next step runs (log entries 3 and 4). -/
def Obligations.PlacedWordRunsNext : Prop :=
  ∀ (s : State) (nbits w : Nat) (i : Instr), decodeTableWord nbits w = some i →
    step (s.withFetchWord nbits w) = exec i (s.withFetchWord nbits w)

/-! ## Stops -/

/-- R250, R255 (the spec's decision D5; the count of signals is the model's field, log entry 9): raising a stop records the reason and signals stopSystem once, and everything else stands as it was. A stop
is final: however many ticks follow, and in every step with nothing scheduled, nothing changes, so exactly the one
stopSystem call stands. -/
def Obligations.StopIsFinal : Prop :=
  ∀ (s : State) (r : StopReason) (n : Nat),
    s.raiseStop r = { s with halted := some r, stopCalls := s.stopCalls + 1 } ∧
    (s.halted ≠ none → State.runTicks n s = .next s) ∧ (s.halted ≠ none → s.inputs = [] → step s = .next s)

/-! ## Devices and the InterruptController -/

/-- R259: a new entry is placed after every entry of greater or equal priority and before every entry of lower priority,
in a queue that is in order. -/
def Obligations.EnqueueBehindEqualPriority : Prop :=
  ∀ (p : Pending) (q : List Pending), queueSorted q = true →
    enqueue p q = q.filter (fun x => decide (p.priority ≤ x.priority)) ++ p :: q.filter (fun x => decide (x.priority < p.priority))

/-- R265, the spec's own inference from R259 and R260: enqueue and dequeue keep the queue in falling priority. -/
def Obligations.QueueStaysSorted : Prop :=
  (∀ (p : Pending) (q : List Pending), queueSorted q = true → queueSorted (enqueue p q) = true) ∧
  (∀ s : State, queueSorted s.queue = true → queueSorted (s.getInterrupt.2).queue = true) ∧
  (∀ q : List Pending, queueSorted q = true ↔ q.Pairwise (fun a b => b.priority ≤ a.priority))

/-- R260, R270: dequeue removes and returns the head, and on an empty queue returns nothing and changes nothing. With
nothing pending, service does nothing; else the head device is taken and one value, if there is one, is removed from its
input queue and then one from its output queue, each logged, input first (the spec's decision D25). That the log is a field
of the state is the model's DESIGN CHOICE, log entry 8. -/
def Obligations.ServiceTakesOneValueOfEachQueue : Prop :=
  ∀ s : State,
    (s.queue = [] → s.getInterrupt = (none, s) ∧ s.serviceInterrupt = s) ∧
    (∀ p rest, s.queue = p :: rest → s.getInterrupt = (some p.device, { s with queue := rest })) ∧
    (∀ p rest dev, s.queue = p :: rest → s.deviceTable[p.device]? = some dev →
      s.serviceInterrupt =
        { s with queue := rest,
                 deviceTable := s.deviceTable.set p.device { dev with input := dev.input.tail, output := dev.output.tail },
                 log := s.log ++ (dev.input.head?.toList.map (fun v => .drained p.device .input v))
                          ++ (dev.output.head?.toList.map (fun v => .drained p.device .output v)) })

/-- R272, the spec's own inference: an instruction that reaches its end takes exactly one entry, the head, if there is
one; one that stops, or whose string never ends, takes none and logs nothing. -/
def Obligations.OneDevicePerInstruction : Prop :=
  ∀ (i : Instr) (s t : State), exec i s = .next t →
    (t.step = .fetch → t.queue = s.queue.tail) ∧ (t.step ≠ .fetch → t.queue = s.queue ∧ t.log = s.log)

/-- R257, R258, R263: a device appends a value to the queue it names; acceptInterrupt enqueues the device, registered or
not, queued already or not; addDevice appends to the registry and copies the debug flag to the device, without enqueueing
it. Nothing else changes. References are indices and entries carry their priority: DESIGN CHOICE, log entries 5 and 6. -/
def Obligations.DeviceOperationEffects : Prop :=
  ∀ (s : State) (d v : Nat) (dev : Device), s.deviceTable[d]? = some dev →
    s.act (.pushInput d v) = .next { s with deviceTable := s.deviceTable.set d { dev with input := dev.input ++ [v] } } ∧
    s.act (.pushOutput d v) = .next { s with deviceTable := s.deviceTable.set d { dev with output := dev.output ++ [v] } } ∧
    s.act (.acceptInterrupt d) =
      .next { s with queue := enqueue { device := d, priority := dev.priority } s.queue } ∧
    s.act (.addDevice d) =
      .next { s with devices := s.devices ++ [d],
                     deviceTable := s.deviceTable.set d { dev with debug := s.controllerDebug } }

/-- Derived from R135 (the spec's decision D18) and R270: a device action before a pulse of any stage but stage 5 is
indistinguishable from the same action after it. -/
def Obligations.DeviceActionsCommuteWithPulses : Prop :=
  ∀ (s : State) (a : Action), a.ofDevice = true → s.step ≠ .interruptCheck →
    andThen (s.act a) State.cpuPulse = andThen s.cpuPulse (fun t => t.act a)

/-- R271 and R41, the spec's own inferences: what a program can see after a step depends only on what it could see before: the pending queue, the
devices, their queues and the log have no influence on pc, the registers, the flag, memory or the output, and on whether
the step has a meaning. -/
def Obligations.DevicesDoNotInfluencePrograms : Prop :=
  ∀ s t : State, s.programView = t.programView →
    mapNext State.programView (step s) = mapNext State.programView (step t)

/-- Device actions change nothing that a program can see (R257, R258, R263, R271). -/
def Obligations.DeviceActionsInvisible : Prop :=
  ∀ (s : State) (a : Action), a.ofDevice = true → ∃ t, s.act a = .next t ∧ t.programView = s.programView

/-! ## The Clock and the host -/

/-- R131: a component with a pulse operation is appended to the listeners; any other is turned away with a log call and
the listeners stay as they are. That the log is a field, and which components there are, is the model's DESIGN CHOICE, log
entries 8 and 21. -/
def Obligations.ListenerNeedsPulse : Prop :=
  ∀ (s : State) (c : Component),
    (∀ l, c.listener = some l → s.addListener c = { s with listeners := s.listeners ++ [l] }) ∧
    (c.listener = none → s.addListener c = { s with log := s.log ++ [.rejectedListener c] }) ∧
    (c.listener ≠ none ↔ c = .cpu ∨ c = .memory ∨ c = .controller)

/-- R132 (the spec's decision D17), R133: starting a Clock that runs and stopping one that does not change nothing; a stopped Clock fires no tick,
and every block keeps its state. -/
def Obligations.StartAndStopAreGuarded : Prop :=
  ∀ s : State,
    s.start = { s with running := true } ∧ s.stop = { s with running := false } ∧
    (s.running = true → s.start = s) ∧ (s.running = false → s.stop = s) ∧
    (s.running = false → s.tick = .next s) ∧ (s.running = false → s.inputs = [] → step s = .next s)

/-- R134: a tick pulses every listener once; since only the CPU's pulse changes state, it is as many CPU pulses as the CPU
is registered times, wherever it stands in the order (R84, R268, the spec's decisions D13 and D20). -/
def Obligations.TickPulsesEveryListenerOnce : Prop :=
  ∀ s : State, s.running = true →
    s.tick = (fun o => andThen o State.cpuPulse)^[s.listeners.count .cpu] (.next s)

/-- R310: loading a program stores every pair, in any order, and no other byte changes; MAR and MDR hold the last pair; a
raw store at `cell(a)` puts the byte where a load of `a` does. -/
def Obligations.LoadOrderDoesNotMatter : Prop :=
  ∀ (s : State) (p q : List (Addr × Byte)), (p.map Prod.fst).Nodup → p.Perm q →
    (∀ a, (s.load p).byteAt a = (s.load q).byteAt a) ∧ (∀ a b, (a, b) ∈ p → (s.load p).byteAt a = b) ∧
    (∀ a, a ∉ p.map Prod.fst → (s.load p).byteAt a = s.byteAt a) ∧
    (∀ a b, (s.load (p ++ [(a, b)])).mar = a ∧ (s.load (p ++ [(a, b)])).mdr = b) ∧
    (∀ a b c, (s.rawWrite (cellIndex a) b).byteAt c = (s.load [(a, b)]).byteAt c)

/-- R80, the spec's own inference from R66, R68 and R142: a store into the code window is what the next fetch of that address returns. -/
def Obligations.StoreSeenByNextFetch : Prop :=
  ∀ (s : State) (n : Byte), ∃ t, exec (.sta 0x00 n) s = .next t ∧
    (State.fetchRoutine { t with pc := n }).opp = s.acc.setWidth 8

/-- R311, R302: from the state after creation, the host's boot and the first tick fetch the byte at address 0x0000 of the
loaded program, with every device created and registered and the Clock running. R311 is the spec's own inference; that the
boot stands in the schedule of the first tick is the model's DESIGN CHOICE, log entries 2 and 3, as is that devices are
indices into a table, log entry 5; the debug flag `true` is the model's too, DEDUCED from R290, log entry 14. -/
def Obligations.BootFetchesAddressZero : Prop :=
  ∀ (devs : List (String × Nat × Int)) (program : List (Addr × Byte)),
    ∃ t, step { State.reset with inputs := [bootActions devs program] } = .next t ∧
      t.opp = (State.reset.load program).byteAt 0x0000 ∧ t.pc = 0x01 ∧ t.step = .decodeOpcode ∧ t.stepCounter = 1 ∧
      t.running = true ∧ t.listeners = [.cpu, .memory, .controller] ∧ t.halted = none ∧
      t.devices = List.range devs.length ∧
      t.deviceTable = devs.map (fun d => { name := d.1, irq := d.2.1, priority := d.2.2, input := [], output := [], debug := true })

/-- R300, R301: re-creation puts the whole CORE in the state after creation, while Memory's own reset leaves the CPU, the
controller and the Clock as they are. That the schedule survives a re-creation, and that the devices do not, is the model's
DESIGN CHOICE, log entry 20; `State.reset` holds the debug flag of log entry 14. -/
def Obligations.ResetsOfCoreAndMemory : Prop :=
  ∀ s : State,
    s.act .recreate = .next { State.reset with inputs := s.inputs } ∧
    s.act .memoryReset = .next { s with mem := State.reset.mem, mar := State.reset.mar, mdr := State.reset.mdr }
end

