-- ==== Sys2Proof/Laws/Memory.lean ====
section
/-! SUPPORT. The laws of the byte array: a read after a write, the canonical form and its uniqueness, and the byte swap. -/

namespace Sys2Proof.Machine

/-! ## Reading after writing -/

theorem Memory.read_erase (m : Memory) (i j : Nat) :
    (Memory.erase m i).read j = if j = i then Config.unlistedByte else m.read j := by
  induction m with
  | nil => simp [Memory.erase, Memory.read]
  | cons c rest ih =>
    obtain ⟨k, b⟩ := c
    by_cases hk : k = i
    · subst hk
      simp only [Memory.erase, Memory.read, List.filter_cons] at ih ⊢
      by_cases hj : j = k
      · subst hj; simpa using ih
      · have : k ≠ j := fun h => hj h.symm
        simpa [hj, this] using ih
    · simp only [Memory.erase, Memory.read, List.filter_cons] at ih ⊢
      by_cases hj : j = i
      · subst hj; simpa [hk, Memory.read] using ih
      · by_cases hkj : k = j <;> (simp [hk, hj, hkj, Memory.read]; try simpa [hj] using ih)

theorem Memory.read_insert (m : Memory) (i j : Nat) (b : Byte) (h : ∀ c ∈ m, c.1 ≠ i) :
    (Memory.insert m i b).read j = if j = i then b else m.read j := by
  induction m with
  | nil =>
    by_cases hj : j = i
    · simp [Memory.insert, Memory.read, hj]
    · have : i ≠ j := fun e => hj e.symm
      simp [Memory.insert, Memory.read, hj, this]
  | cons c rest ih =>
    obtain ⟨k, d⟩ := c
    have hk : k ≠ i := h (k, d) (by simp)
    have ih' := ih (fun c hc => h c (by simp [hc]))
    unfold Memory.insert
    split
    · by_cases hj : j = i
      · simp [Memory.read, hj]
      · have : i ≠ j := fun e => hj e.symm
        simp [Memory.read, hj, this]
    · by_cases hj : j = i
      · subst hj; simp [Memory.read, hk, ih']
      · simp [Memory.read, ih', hj]

theorem Memory.erase_ne (m : Memory) (i : Nat) : ∀ c ∈ Memory.erase m i, c.1 ≠ i := by
  intro c hc
  simpa [Memory.erase] using (List.mem_filter.mp hc).2

/-- A write to cell `i` changes what cell `j` reads as exactly when `j` is `i`. -/
theorem Memory.read_write (m : Memory) (i j : Nat) (b : Byte) :
    (m.write i b).read j = if j = i then b else m.read j := by
  unfold Memory.write
  split
  · next h => rw [Memory.read_erase, h]
  · rw [Memory.read_insert _ _ _ _ (Memory.erase_ne m i), Memory.read_erase]
    split <;> rfl

@[simp] theorem Memory.read_nil (i : Nat) : Memory.read [] i = 0 := rfl

/-! ## The canonical form -/

theorem Memory.wfFrom_mono {m : Memory} {lo lo' : Nat} (h : lo' ≤ lo) (hm : m.wfFrom lo = true) :
    m.wfFrom lo' = true := by
  cases m with
  | nil => rfl
  | cons c rest =>
    obtain ⟨k, b⟩ := c
    simp only [Memory.wfFrom, Bool.and_eq_true, decide_eq_true_eq] at hm ⊢
    exact ⟨⟨⟨by omega, hm.1.1.2⟩, hm.1.2⟩, hm.2⟩

theorem Memory.wfFrom_erase {m : Memory} {lo : Nat} (i : Nat) (hm : m.wfFrom lo = true) :
    (Memory.erase m i).wfFrom lo = true := by
  induction m generalizing lo with
  | nil => rfl
  | cons c rest ih =>
    obtain ⟨k, b⟩ := c
    simp only [Memory.wfFrom, Bool.and_eq_true, decide_eq_true_eq] at hm
    have ih' := ih hm.2
    by_cases hk : k = i
    · simp only [Memory.erase, List.filter_cons, hk] at ih' ⊢
      simpa using Memory.wfFrom_mono (by omega) ih'
    · simp only [Memory.erase, List.filter_cons] at ih' ⊢
      simp [hk, Memory.wfFrom, hm, ih']

theorem Memory.wfFrom_insert {m : Memory} {lo i : Nat} {b : Byte} (hm : m.wfFrom lo = true) (hne : ∀ c ∈ m, c.1 ≠ i)
    (hlo : lo ≤ i) (hi : i < Config.memorySize) (hb : b ≠ Config.unlistedByte) :
    (Memory.insert m i b).wfFrom lo = true := by
  induction m generalizing lo with
  | nil => simp [Memory.insert, Memory.wfFrom, hlo, hi, hb]
  | cons c rest ih =>
    obtain ⟨k, d⟩ := c
    have hk : k ≠ i := hne (k, d) (by simp)
    simp only [Memory.wfFrom, Bool.and_eq_true, decide_eq_true_eq] at hm
    unfold Memory.insert
    split
    · next h =>
      simp only [Memory.wfFrom, Bool.and_eq_true, decide_eq_true_eq]
      exact ⟨⟨⟨hlo, hi⟩, by simp [hb]⟩, ⟨⟨by omega, hm.1.1.2⟩, hm.1.2⟩, hm.2⟩
    · next h =>
      have := ih hm.2 (fun c hc => hne c (by simp [hc])) (by omega)
      simp only [Memory.wfFrom, Bool.and_eq_true, decide_eq_true_eq]
      exact ⟨⟨⟨hm.1.1.1, hm.1.1.2⟩, hm.1.2⟩, this⟩

/-- A write inside the array keeps the canonical form. -/
theorem Memory.wf_write {m : Memory} (hm : m.wf = true) {i : Nat} (hi : i < Config.memorySize) (b : Byte) :
    (m.write i b).wf = true := by
  unfold Memory.write
  split
  · exact Memory.wfFrom_erase i hm
  · next hb => exact Memory.wfFrom_insert (Memory.wfFrom_erase i hm) (Memory.erase_ne m i) (Nat.zero_le _) hi hb

@[simp] theorem Memory.wf_nil : Memory.wf [] = true := rfl

theorem Memory.wf_reset : Memory.wf State.reset.mem = true := rfl

theorem Memory.addr_lt (a : Addr) : a.toNat < Config.memorySize := a.isLt

theorem Memory.read_below {m : Memory} {lo i : Nat} (hm : m.wfFrom lo = true) (hi : i < lo) :
    m.read i = Config.unlistedByte := by
  induction m generalizing lo with
  | nil => rfl
  | cons c rest ih =>
    obtain ⟨k, b⟩ := c
    simp only [Memory.wfFrom, Bool.and_eq_true, decide_eq_true_eq] at hm
    have : k ≠ i := by omega
    simp only [Memory.read, this, if_false]
    exact ih hm.2 (by omega)

/-- Two memories in canonical form that read alike everywhere are the same data. -/
theorem Memory.eq_of_read {m n : Memory} {lo : Nat} (hm : m.wfFrom lo = true) (hn : n.wfFrom lo = true)
    (h : ∀ i, m.read i = n.read i) : m = n := by
  induction m generalizing n lo with
  | nil =>
    cases n with
    | nil => rfl
    | cons c rest =>
      obtain ⟨k, b⟩ := c
      simp only [Memory.wfFrom, Bool.and_eq_true] at hn
      have := h k
      simp only [Memory.read, if_true] at this
      simp [this] at hn
  | cons c rest ih =>
    obtain ⟨k, b⟩ := c
    have hm' := hm
    simp only [Memory.wfFrom, Bool.and_eq_true, decide_eq_true_eq, bne_iff_ne, ne_eq] at hm'
    cases n with
    | nil =>
      have := h k
      simp only [Memory.read] at this
      simp_all
    | cons c' rest' =>
      obtain ⟨k', b'⟩ := c'
      have hn' := hn
      simp only [Memory.wfFrom, Bool.and_eq_true, decide_eq_true_eq, bne_iff_ne, ne_eq] at hn'
      have hkk : k = k' := by
        rcases Nat.lt_trichotomy k k' with hlt | heq | hgt
        · have h1 := h k
          have h2 : Memory.read rest' k = Config.unlistedByte := Memory.read_below hn'.2 (by omega)
          have h3 : k' ≠ k := by omega
          simp only [Memory.read, h3, if_false, if_true, h2] at h1
          exact absurd h1 hm'.1.2
        · exact heq
        · have h1 := h k'
          have h2 : Memory.read rest k' = Config.unlistedByte := Memory.read_below hm'.2 (by omega)
          have h3 : k ≠ k' := by omega
          simp only [Memory.read, h3, if_false, if_true, h2] at h1
          exact absurd h1.symm hn'.1.2
      subst hkk
      have hb : b = b' := by simpa [Memory.read] using h k
      subst hb
      have : rest = rest' := ih hm'.2 hn'.2 (fun i => by
        by_cases hi : i ≤ k
        · rw [Memory.read_below hm'.2 (by omega), Memory.read_below hn'.2 (by omega)]
        · have := h i
          have hki : k ≠ i := by omega
          simpa [Memory.read, hki] using this)
      rw [this]

/-! ## Bytes of an address and the byte swap -/

theorem pairAddr_toNat (b0 b1 : Byte) : (pairAddr b0 b1).toNat = b0.toNat * 256 + b1.toNat := by
  have happ := @BitVec.toNat_append 8 8 b0 b1
  have hor := Nat.shiftLeft_add_eq_or_of_lt b1.isLt b0.toNat
  have hdef : (pairAddr b0 b1).toNat = (b0 ++ b1 : BitVec (8 + 8)).toNat := rfl
  rw [hdef, happ, ← hor, Nat.shiftLeft_eq]

theorem hiByte_toNat (a : Addr) : (hiByte a).toNat = a.toNat / 256 := by
  have := a.isLt
  simp [hiByte, BitVec.extractLsb'_toNat, Nat.shiftRight_eq_div_pow]
  omega

theorem loByte_toNat (a : Addr) : (loByte a).toNat = a.toNat % 256 := by
  simp [loByte, BitVec.extractLsb'_toNat]

@[simp] theorem hiByte_pairAddr (b0 b1 : Byte) : hiByte (pairAddr b0 b1) = b0 := by
  apply BitVec.eq_of_toNat_eq
  rw [hiByte_toNat, pairAddr_toNat]
  omega

@[simp] theorem loByte_pairAddr (b0 b1 : Byte) : loByte (pairAddr b0 b1) = b1 := by
  apply BitVec.eq_of_toNat_eq
  rw [loByte_toNat, pairAddr_toNat]
  omega

@[simp] theorem pairAddr_bytes (a : Addr) : pairAddr (hiByte a) (loByte a) = a := by
  apply BitVec.eq_of_toNat_eq
  rw [pairAddr_toNat, hiByte_toNat, loByte_toNat]
  omega

theorem pairAddr_inj {b0 b1 c0 c1 : Byte} (h : pairAddr b0 b1 = pairAddr c0 c1) : b0 = c0 ∧ b1 = c1 :=
  ⟨by simpa using congrArg hiByte h, by simpa using congrArg loByte h⟩

end Sys2Proof.Machine
end

