-- ==== Sys2Proof/Laws/State.lean ====
section
/-! SUPPORT. One lemma per field per named update of the state: what the update leaves in that field. -/

namespace Sys2Proof.Machine

/-! ## setMar -/

@[simp] theorem State.setMar_pc (s : State) (a : Addr) : (s.setMar a).pc = s.pc := rfl
@[simp] theorem State.setMar_acc (s : State) (a : Addr) : (s.setMar a).acc = s.acc := rfl
@[simp] theorem State.setMar_xReg (s : State) (a : Addr) : (s.setMar a).xReg = s.xReg := rfl
@[simp] theorem State.setMar_yReg (s : State) (a : Addr) : (s.setMar a).yReg = s.yReg := rfl
@[simp] theorem State.setMar_zFlag (s : State) (a : Addr) : (s.setMar a).zFlag = s.zFlag := rfl
@[simp] theorem State.setMar_ir (s : State) (a : Addr) : (s.setMar a).ir = s.ir := rfl
@[simp] theorem State.setMar_opp (s : State) (a : Addr) : (s.setMar a).opp = s.opp := rfl
@[simp] theorem State.setMar_irx (s : State) (a : Addr) : (s.setMar a).irx = s.irx := rfl
@[simp] theorem State.setMar_iry (s : State) (a : Addr) : (s.setMar a).iry = s.iry := rfl
@[simp] theorem State.setMar_step (s : State) (a : Addr) : (s.setMar a).step = s.step := rfl
@[simp] theorem State.setMar_stepCounter (s : State) (a : Addr) : (s.setMar a).stepCounter = s.stepCounter := rfl
@[simp] theorem State.setMar_halted (s : State) (a : Addr) : (s.setMar a).halted = s.halted := rfl
@[simp] theorem State.setMar_out (s : State) (a : Addr) : (s.setMar a).out = s.out := rfl
@[simp] theorem State.setMar_mem (s : State) (a : Addr) : (s.setMar a).mem = s.mem := rfl
@[simp] theorem State.setMar_mar (s : State) (a : Addr) : (s.setMar a).mar = a := rfl
@[simp] theorem State.setMar_mdr (s : State) (a : Addr) : (s.setMar a).mdr = s.mdr := rfl
@[simp] theorem State.setMar_queue (s : State) (a : Addr) : (s.setMar a).queue = s.queue := rfl
@[simp] theorem State.setMar_devices (s : State) (a : Addr) : (s.setMar a).devices = s.devices := rfl
@[simp] theorem State.setMar_controllerDebug (s : State) (a : Addr) : (s.setMar a).controllerDebug = s.controllerDebug := rfl
@[simp] theorem State.setMar_deviceTable (s : State) (a : Addr) : (s.setMar a).deviceTable = s.deviceTable := rfl
@[simp] theorem State.setMar_listeners (s : State) (a : Addr) : (s.setMar a).listeners = s.listeners := rfl
@[simp] theorem State.setMar_running (s : State) (a : Addr) : (s.setMar a).running = s.running := rfl
@[simp] theorem State.setMar_stopCalls (s : State) (a : Addr) : (s.setMar a).stopCalls = s.stopCalls := rfl
@[simp] theorem State.setMar_log (s : State) (a : Addr) : (s.setMar a).log = s.log := rfl
@[simp] theorem State.setMar_inputs (s : State) (a : Addr) : (s.setMar a).inputs = s.inputs := rfl

/-! ## setMarHigh -/

@[simp] theorem State.setMarHigh_pc (s : State) (b : Byte) : (s.setMarHigh b).pc = s.pc := rfl
@[simp] theorem State.setMarHigh_acc (s : State) (b : Byte) : (s.setMarHigh b).acc = s.acc := rfl
@[simp] theorem State.setMarHigh_xReg (s : State) (b : Byte) : (s.setMarHigh b).xReg = s.xReg := rfl
@[simp] theorem State.setMarHigh_yReg (s : State) (b : Byte) : (s.setMarHigh b).yReg = s.yReg := rfl
@[simp] theorem State.setMarHigh_zFlag (s : State) (b : Byte) : (s.setMarHigh b).zFlag = s.zFlag := rfl
@[simp] theorem State.setMarHigh_ir (s : State) (b : Byte) : (s.setMarHigh b).ir = s.ir := rfl
@[simp] theorem State.setMarHigh_opp (s : State) (b : Byte) : (s.setMarHigh b).opp = s.opp := rfl
@[simp] theorem State.setMarHigh_irx (s : State) (b : Byte) : (s.setMarHigh b).irx = s.irx := rfl
@[simp] theorem State.setMarHigh_iry (s : State) (b : Byte) : (s.setMarHigh b).iry = s.iry := rfl
@[simp] theorem State.setMarHigh_step (s : State) (b : Byte) : (s.setMarHigh b).step = s.step := rfl
@[simp] theorem State.setMarHigh_stepCounter (s : State) (b : Byte) : (s.setMarHigh b).stepCounter = s.stepCounter := rfl
@[simp] theorem State.setMarHigh_halted (s : State) (b : Byte) : (s.setMarHigh b).halted = s.halted := rfl
@[simp] theorem State.setMarHigh_out (s : State) (b : Byte) : (s.setMarHigh b).out = s.out := rfl
@[simp] theorem State.setMarHigh_mem (s : State) (b : Byte) : (s.setMarHigh b).mem = s.mem := rfl
@[simp] theorem State.setMarHigh_mar (s : State) (b : Byte) : (s.setMarHigh b).mar = pairAddr b (loByte s.mar) := rfl
@[simp] theorem State.setMarHigh_mdr (s : State) (b : Byte) : (s.setMarHigh b).mdr = s.mdr := rfl
@[simp] theorem State.setMarHigh_queue (s : State) (b : Byte) : (s.setMarHigh b).queue = s.queue := rfl
@[simp] theorem State.setMarHigh_devices (s : State) (b : Byte) : (s.setMarHigh b).devices = s.devices := rfl
@[simp] theorem State.setMarHigh_controllerDebug (s : State) (b : Byte) : (s.setMarHigh b).controllerDebug = s.controllerDebug := rfl
@[simp] theorem State.setMarHigh_deviceTable (s : State) (b : Byte) : (s.setMarHigh b).deviceTable = s.deviceTable := rfl
@[simp] theorem State.setMarHigh_listeners (s : State) (b : Byte) : (s.setMarHigh b).listeners = s.listeners := rfl
@[simp] theorem State.setMarHigh_running (s : State) (b : Byte) : (s.setMarHigh b).running = s.running := rfl
@[simp] theorem State.setMarHigh_stopCalls (s : State) (b : Byte) : (s.setMarHigh b).stopCalls = s.stopCalls := rfl
@[simp] theorem State.setMarHigh_log (s : State) (b : Byte) : (s.setMarHigh b).log = s.log := rfl
@[simp] theorem State.setMarHigh_inputs (s : State) (b : Byte) : (s.setMarHigh b).inputs = s.inputs := rfl

/-! ## setMarLow -/

@[simp] theorem State.setMarLow_pc (s : State) (b : Byte) : (s.setMarLow b).pc = s.pc := rfl
@[simp] theorem State.setMarLow_acc (s : State) (b : Byte) : (s.setMarLow b).acc = s.acc := rfl
@[simp] theorem State.setMarLow_xReg (s : State) (b : Byte) : (s.setMarLow b).xReg = s.xReg := rfl
@[simp] theorem State.setMarLow_yReg (s : State) (b : Byte) : (s.setMarLow b).yReg = s.yReg := rfl
@[simp] theorem State.setMarLow_zFlag (s : State) (b : Byte) : (s.setMarLow b).zFlag = s.zFlag := rfl
@[simp] theorem State.setMarLow_ir (s : State) (b : Byte) : (s.setMarLow b).ir = s.ir := rfl
@[simp] theorem State.setMarLow_opp (s : State) (b : Byte) : (s.setMarLow b).opp = s.opp := rfl
@[simp] theorem State.setMarLow_irx (s : State) (b : Byte) : (s.setMarLow b).irx = s.irx := rfl
@[simp] theorem State.setMarLow_iry (s : State) (b : Byte) : (s.setMarLow b).iry = s.iry := rfl
@[simp] theorem State.setMarLow_step (s : State) (b : Byte) : (s.setMarLow b).step = s.step := rfl
@[simp] theorem State.setMarLow_stepCounter (s : State) (b : Byte) : (s.setMarLow b).stepCounter = s.stepCounter := rfl
@[simp] theorem State.setMarLow_halted (s : State) (b : Byte) : (s.setMarLow b).halted = s.halted := rfl
@[simp] theorem State.setMarLow_out (s : State) (b : Byte) : (s.setMarLow b).out = s.out := rfl
@[simp] theorem State.setMarLow_mem (s : State) (b : Byte) : (s.setMarLow b).mem = s.mem := rfl
@[simp] theorem State.setMarLow_mar (s : State) (b : Byte) : (s.setMarLow b).mar = pairAddr (hiByte s.mar) b := rfl
@[simp] theorem State.setMarLow_mdr (s : State) (b : Byte) : (s.setMarLow b).mdr = s.mdr := rfl
@[simp] theorem State.setMarLow_queue (s : State) (b : Byte) : (s.setMarLow b).queue = s.queue := rfl
@[simp] theorem State.setMarLow_devices (s : State) (b : Byte) : (s.setMarLow b).devices = s.devices := rfl
@[simp] theorem State.setMarLow_controllerDebug (s : State) (b : Byte) : (s.setMarLow b).controllerDebug = s.controllerDebug := rfl
@[simp] theorem State.setMarLow_deviceTable (s : State) (b : Byte) : (s.setMarLow b).deviceTable = s.deviceTable := rfl
@[simp] theorem State.setMarLow_listeners (s : State) (b : Byte) : (s.setMarLow b).listeners = s.listeners := rfl
@[simp] theorem State.setMarLow_running (s : State) (b : Byte) : (s.setMarLow b).running = s.running := rfl
@[simp] theorem State.setMarLow_stopCalls (s : State) (b : Byte) : (s.setMarLow b).stopCalls = s.stopCalls := rfl
@[simp] theorem State.setMarLow_log (s : State) (b : Byte) : (s.setMarLow b).log = s.log := rfl
@[simp] theorem State.setMarLow_inputs (s : State) (b : Byte) : (s.setMarLow b).inputs = s.inputs := rfl

/-! ## setMdr -/

@[simp] theorem State.setMdr_pc (s : State) (v : Byte) : (s.setMdr v).pc = s.pc := rfl
@[simp] theorem State.setMdr_acc (s : State) (v : Byte) : (s.setMdr v).acc = s.acc := rfl
@[simp] theorem State.setMdr_xReg (s : State) (v : Byte) : (s.setMdr v).xReg = s.xReg := rfl
@[simp] theorem State.setMdr_yReg (s : State) (v : Byte) : (s.setMdr v).yReg = s.yReg := rfl
@[simp] theorem State.setMdr_zFlag (s : State) (v : Byte) : (s.setMdr v).zFlag = s.zFlag := rfl
@[simp] theorem State.setMdr_ir (s : State) (v : Byte) : (s.setMdr v).ir = s.ir := rfl
@[simp] theorem State.setMdr_opp (s : State) (v : Byte) : (s.setMdr v).opp = s.opp := rfl
@[simp] theorem State.setMdr_irx (s : State) (v : Byte) : (s.setMdr v).irx = s.irx := rfl
@[simp] theorem State.setMdr_iry (s : State) (v : Byte) : (s.setMdr v).iry = s.iry := rfl
@[simp] theorem State.setMdr_step (s : State) (v : Byte) : (s.setMdr v).step = s.step := rfl
@[simp] theorem State.setMdr_stepCounter (s : State) (v : Byte) : (s.setMdr v).stepCounter = s.stepCounter := rfl
@[simp] theorem State.setMdr_halted (s : State) (v : Byte) : (s.setMdr v).halted = s.halted := rfl
@[simp] theorem State.setMdr_out (s : State) (v : Byte) : (s.setMdr v).out = s.out := rfl
@[simp] theorem State.setMdr_mem (s : State) (v : Byte) : (s.setMdr v).mem = s.mem := rfl
@[simp] theorem State.setMdr_mar (s : State) (v : Byte) : (s.setMdr v).mar = s.mar := rfl
@[simp] theorem State.setMdr_mdr (s : State) (v : Byte) : (s.setMdr v).mdr = v := rfl
@[simp] theorem State.setMdr_queue (s : State) (v : Byte) : (s.setMdr v).queue = s.queue := rfl
@[simp] theorem State.setMdr_devices (s : State) (v : Byte) : (s.setMdr v).devices = s.devices := rfl
@[simp] theorem State.setMdr_controllerDebug (s : State) (v : Byte) : (s.setMdr v).controllerDebug = s.controllerDebug := rfl
@[simp] theorem State.setMdr_deviceTable (s : State) (v : Byte) : (s.setMdr v).deviceTable = s.deviceTable := rfl
@[simp] theorem State.setMdr_listeners (s : State) (v : Byte) : (s.setMdr v).listeners = s.listeners := rfl
@[simp] theorem State.setMdr_running (s : State) (v : Byte) : (s.setMdr v).running = s.running := rfl
@[simp] theorem State.setMdr_stopCalls (s : State) (v : Byte) : (s.setMdr v).stopCalls = s.stopCalls := rfl
@[simp] theorem State.setMdr_log (s : State) (v : Byte) : (s.setMdr v).log = s.log := rfl
@[simp] theorem State.setMdr_inputs (s : State) (v : Byte) : (s.setMdr v).inputs = s.inputs := rfl

/-! ## readCell -/

@[simp] theorem State.readCell_pc (s : State) : s.readCell.pc = s.pc := rfl
@[simp] theorem State.readCell_acc (s : State) : s.readCell.acc = s.acc := rfl
@[simp] theorem State.readCell_xReg (s : State) : s.readCell.xReg = s.xReg := rfl
@[simp] theorem State.readCell_yReg (s : State) : s.readCell.yReg = s.yReg := rfl
@[simp] theorem State.readCell_zFlag (s : State) : s.readCell.zFlag = s.zFlag := rfl
@[simp] theorem State.readCell_ir (s : State) : s.readCell.ir = s.ir := rfl
@[simp] theorem State.readCell_opp (s : State) : s.readCell.opp = s.opp := rfl
@[simp] theorem State.readCell_irx (s : State) : s.readCell.irx = s.irx := rfl
@[simp] theorem State.readCell_iry (s : State) : s.readCell.iry = s.iry := rfl
@[simp] theorem State.readCell_step (s : State) : s.readCell.step = s.step := rfl
@[simp] theorem State.readCell_stepCounter (s : State) : s.readCell.stepCounter = s.stepCounter := rfl
@[simp] theorem State.readCell_halted (s : State) : s.readCell.halted = s.halted := rfl
@[simp] theorem State.readCell_out (s : State) : s.readCell.out = s.out := rfl
@[simp] theorem State.readCell_mem (s : State) : s.readCell.mem = s.mem := rfl
@[simp] theorem State.readCell_mar (s : State) : s.readCell.mar = s.mar := rfl
@[simp] theorem State.readCell_mdr (s : State) : s.readCell.mdr = Memory.read s.mem (cellIndex s.mar).toNat := rfl
@[simp] theorem State.readCell_queue (s : State) : s.readCell.queue = s.queue := rfl
@[simp] theorem State.readCell_devices (s : State) : s.readCell.devices = s.devices := rfl
@[simp] theorem State.readCell_controllerDebug (s : State) : s.readCell.controllerDebug = s.controllerDebug := rfl
@[simp] theorem State.readCell_deviceTable (s : State) : s.readCell.deviceTable = s.deviceTable := rfl
@[simp] theorem State.readCell_listeners (s : State) : s.readCell.listeners = s.listeners := rfl
@[simp] theorem State.readCell_running (s : State) : s.readCell.running = s.running := rfl
@[simp] theorem State.readCell_stopCalls (s : State) : s.readCell.stopCalls = s.stopCalls := rfl
@[simp] theorem State.readCell_log (s : State) : s.readCell.log = s.log := rfl
@[simp] theorem State.readCell_inputs (s : State) : s.readCell.inputs = s.inputs := rfl

/-! ## writeCell -/

@[simp] theorem State.writeCell_pc (s : State) : s.writeCell.pc = s.pc := rfl
@[simp] theorem State.writeCell_acc (s : State) : s.writeCell.acc = s.acc := rfl
@[simp] theorem State.writeCell_xReg (s : State) : s.writeCell.xReg = s.xReg := rfl
@[simp] theorem State.writeCell_yReg (s : State) : s.writeCell.yReg = s.yReg := rfl
@[simp] theorem State.writeCell_zFlag (s : State) : s.writeCell.zFlag = s.zFlag := rfl
@[simp] theorem State.writeCell_ir (s : State) : s.writeCell.ir = s.ir := rfl
@[simp] theorem State.writeCell_opp (s : State) : s.writeCell.opp = s.opp := rfl
@[simp] theorem State.writeCell_irx (s : State) : s.writeCell.irx = s.irx := rfl
@[simp] theorem State.writeCell_iry (s : State) : s.writeCell.iry = s.iry := rfl
@[simp] theorem State.writeCell_step (s : State) : s.writeCell.step = s.step := rfl
@[simp] theorem State.writeCell_stepCounter (s : State) : s.writeCell.stepCounter = s.stepCounter := rfl
@[simp] theorem State.writeCell_halted (s : State) : s.writeCell.halted = s.halted := rfl
@[simp] theorem State.writeCell_out (s : State) : s.writeCell.out = s.out := rfl
@[simp] theorem State.writeCell_mem (s : State) : s.writeCell.mem = Memory.write s.mem (cellIndex s.mar).toNat s.mdr := rfl
@[simp] theorem State.writeCell_mar (s : State) : s.writeCell.mar = s.mar := rfl
@[simp] theorem State.writeCell_mdr (s : State) : s.writeCell.mdr = s.mdr := rfl
@[simp] theorem State.writeCell_queue (s : State) : s.writeCell.queue = s.queue := rfl
@[simp] theorem State.writeCell_devices (s : State) : s.writeCell.devices = s.devices := rfl
@[simp] theorem State.writeCell_controllerDebug (s : State) : s.writeCell.controllerDebug = s.controllerDebug := rfl
@[simp] theorem State.writeCell_deviceTable (s : State) : s.writeCell.deviceTable = s.deviceTable := rfl
@[simp] theorem State.writeCell_listeners (s : State) : s.writeCell.listeners = s.listeners := rfl
@[simp] theorem State.writeCell_running (s : State) : s.writeCell.running = s.running := rfl
@[simp] theorem State.writeCell_stopCalls (s : State) : s.writeCell.stopCalls = s.stopCalls := rfl
@[simp] theorem State.writeCell_log (s : State) : s.writeCell.log = s.log := rfl
@[simp] theorem State.writeCell_inputs (s : State) : s.writeCell.inputs = s.inputs := rfl

/-! ## rawWrite -/

@[simp] theorem State.rawWrite_pc (s : State) (i : Addr) (v : Byte) : (s.rawWrite i v).pc = s.pc := rfl
@[simp] theorem State.rawWrite_acc (s : State) (i : Addr) (v : Byte) : (s.rawWrite i v).acc = s.acc := rfl
@[simp] theorem State.rawWrite_xReg (s : State) (i : Addr) (v : Byte) : (s.rawWrite i v).xReg = s.xReg := rfl
@[simp] theorem State.rawWrite_yReg (s : State) (i : Addr) (v : Byte) : (s.rawWrite i v).yReg = s.yReg := rfl
@[simp] theorem State.rawWrite_zFlag (s : State) (i : Addr) (v : Byte) : (s.rawWrite i v).zFlag = s.zFlag := rfl
@[simp] theorem State.rawWrite_ir (s : State) (i : Addr) (v : Byte) : (s.rawWrite i v).ir = s.ir := rfl
@[simp] theorem State.rawWrite_opp (s : State) (i : Addr) (v : Byte) : (s.rawWrite i v).opp = s.opp := rfl
@[simp] theorem State.rawWrite_irx (s : State) (i : Addr) (v : Byte) : (s.rawWrite i v).irx = s.irx := rfl
@[simp] theorem State.rawWrite_iry (s : State) (i : Addr) (v : Byte) : (s.rawWrite i v).iry = s.iry := rfl
@[simp] theorem State.rawWrite_step (s : State) (i : Addr) (v : Byte) : (s.rawWrite i v).step = s.step := rfl
@[simp] theorem State.rawWrite_stepCounter (s : State) (i : Addr) (v : Byte) : (s.rawWrite i v).stepCounter = s.stepCounter := rfl
@[simp] theorem State.rawWrite_halted (s : State) (i : Addr) (v : Byte) : (s.rawWrite i v).halted = s.halted := rfl
@[simp] theorem State.rawWrite_out (s : State) (i : Addr) (v : Byte) : (s.rawWrite i v).out = s.out := rfl
@[simp] theorem State.rawWrite_mem (s : State) (i : Addr) (v : Byte) : (s.rawWrite i v).mem = Memory.write s.mem i.toNat v := rfl
@[simp] theorem State.rawWrite_mar (s : State) (i : Addr) (v : Byte) : (s.rawWrite i v).mar = s.mar := rfl
@[simp] theorem State.rawWrite_mdr (s : State) (i : Addr) (v : Byte) : (s.rawWrite i v).mdr = s.mdr := rfl
@[simp] theorem State.rawWrite_queue (s : State) (i : Addr) (v : Byte) : (s.rawWrite i v).queue = s.queue := rfl
@[simp] theorem State.rawWrite_devices (s : State) (i : Addr) (v : Byte) : (s.rawWrite i v).devices = s.devices := rfl
@[simp] theorem State.rawWrite_controllerDebug (s : State) (i : Addr) (v : Byte) : (s.rawWrite i v).controllerDebug = s.controllerDebug := rfl
@[simp] theorem State.rawWrite_deviceTable (s : State) (i : Addr) (v : Byte) : (s.rawWrite i v).deviceTable = s.deviceTable := rfl
@[simp] theorem State.rawWrite_listeners (s : State) (i : Addr) (v : Byte) : (s.rawWrite i v).listeners = s.listeners := rfl
@[simp] theorem State.rawWrite_running (s : State) (i : Addr) (v : Byte) : (s.rawWrite i v).running = s.running := rfl
@[simp] theorem State.rawWrite_stopCalls (s : State) (i : Addr) (v : Byte) : (s.rawWrite i v).stopCalls = s.stopCalls := rfl
@[simp] theorem State.rawWrite_log (s : State) (i : Addr) (v : Byte) : (s.rawWrite i v).log = s.log := rfl
@[simp] theorem State.rawWrite_inputs (s : State) (i : Addr) (v : Byte) : (s.rawWrite i v).inputs = s.inputs := rfl

/-! ## memoryReset -/

@[simp] theorem State.memoryReset_pc (s : State) : s.memoryReset.pc = s.pc := rfl
@[simp] theorem State.memoryReset_acc (s : State) : s.memoryReset.acc = s.acc := rfl
@[simp] theorem State.memoryReset_xReg (s : State) : s.memoryReset.xReg = s.xReg := rfl
@[simp] theorem State.memoryReset_yReg (s : State) : s.memoryReset.yReg = s.yReg := rfl
@[simp] theorem State.memoryReset_zFlag (s : State) : s.memoryReset.zFlag = s.zFlag := rfl
@[simp] theorem State.memoryReset_ir (s : State) : s.memoryReset.ir = s.ir := rfl
@[simp] theorem State.memoryReset_opp (s : State) : s.memoryReset.opp = s.opp := rfl
@[simp] theorem State.memoryReset_irx (s : State) : s.memoryReset.irx = s.irx := rfl
@[simp] theorem State.memoryReset_iry (s : State) : s.memoryReset.iry = s.iry := rfl
@[simp] theorem State.memoryReset_step (s : State) : s.memoryReset.step = s.step := rfl
@[simp] theorem State.memoryReset_stepCounter (s : State) : s.memoryReset.stepCounter = s.stepCounter := rfl
@[simp] theorem State.memoryReset_halted (s : State) : s.memoryReset.halted = s.halted := rfl
@[simp] theorem State.memoryReset_out (s : State) : s.memoryReset.out = s.out := rfl
@[simp] theorem State.memoryReset_mem (s : State) : s.memoryReset.mem = [] := rfl
@[simp] theorem State.memoryReset_mar (s : State) : s.memoryReset.mar = 0 := rfl
@[simp] theorem State.memoryReset_mdr (s : State) : s.memoryReset.mdr = 0 := rfl
@[simp] theorem State.memoryReset_queue (s : State) : s.memoryReset.queue = s.queue := rfl
@[simp] theorem State.memoryReset_devices (s : State) : s.memoryReset.devices = s.devices := rfl
@[simp] theorem State.memoryReset_controllerDebug (s : State) : s.memoryReset.controllerDebug = s.controllerDebug := rfl
@[simp] theorem State.memoryReset_deviceTable (s : State) : s.memoryReset.deviceTable = s.deviceTable := rfl
@[simp] theorem State.memoryReset_listeners (s : State) : s.memoryReset.listeners = s.listeners := rfl
@[simp] theorem State.memoryReset_running (s : State) : s.memoryReset.running = s.running := rfl
@[simp] theorem State.memoryReset_stopCalls (s : State) : s.memoryReset.stopCalls = s.stopCalls := rfl
@[simp] theorem State.memoryReset_log (s : State) : s.memoryReset.log = s.log := rfl
@[simp] theorem State.memoryReset_inputs (s : State) : s.memoryReset.inputs = s.inputs := rfl

/-! ## setStep -/

@[simp] theorem State.setStep_pc (s : State) (st : Stage) : (s.setStep st).pc = s.pc := rfl
@[simp] theorem State.setStep_acc (s : State) (st : Stage) : (s.setStep st).acc = s.acc := rfl
@[simp] theorem State.setStep_xReg (s : State) (st : Stage) : (s.setStep st).xReg = s.xReg := rfl
@[simp] theorem State.setStep_yReg (s : State) (st : Stage) : (s.setStep st).yReg = s.yReg := rfl
@[simp] theorem State.setStep_zFlag (s : State) (st : Stage) : (s.setStep st).zFlag = s.zFlag := rfl
@[simp] theorem State.setStep_ir (s : State) (st : Stage) : (s.setStep st).ir = s.ir := rfl
@[simp] theorem State.setStep_opp (s : State) (st : Stage) : (s.setStep st).opp = s.opp := rfl
@[simp] theorem State.setStep_irx (s : State) (st : Stage) : (s.setStep st).irx = s.irx := rfl
@[simp] theorem State.setStep_iry (s : State) (st : Stage) : (s.setStep st).iry = s.iry := rfl
@[simp] theorem State.setStep_step (s : State) (st : Stage) : (s.setStep st).step = st := rfl
@[simp] theorem State.setStep_stepCounter (s : State) (st : Stage) : (s.setStep st).stepCounter = s.stepCounter := rfl
@[simp] theorem State.setStep_halted (s : State) (st : Stage) : (s.setStep st).halted = s.halted := rfl
@[simp] theorem State.setStep_out (s : State) (st : Stage) : (s.setStep st).out = s.out := rfl
@[simp] theorem State.setStep_mem (s : State) (st : Stage) : (s.setStep st).mem = s.mem := rfl
@[simp] theorem State.setStep_mar (s : State) (st : Stage) : (s.setStep st).mar = s.mar := rfl
@[simp] theorem State.setStep_mdr (s : State) (st : Stage) : (s.setStep st).mdr = s.mdr := rfl
@[simp] theorem State.setStep_queue (s : State) (st : Stage) : (s.setStep st).queue = s.queue := rfl
@[simp] theorem State.setStep_devices (s : State) (st : Stage) : (s.setStep st).devices = s.devices := rfl
@[simp] theorem State.setStep_controllerDebug (s : State) (st : Stage) : (s.setStep st).controllerDebug = s.controllerDebug := rfl
@[simp] theorem State.setStep_deviceTable (s : State) (st : Stage) : (s.setStep st).deviceTable = s.deviceTable := rfl
@[simp] theorem State.setStep_listeners (s : State) (st : Stage) : (s.setStep st).listeners = s.listeners := rfl
@[simp] theorem State.setStep_running (s : State) (st : Stage) : (s.setStep st).running = s.running := rfl
@[simp] theorem State.setStep_stopCalls (s : State) (st : Stage) : (s.setStep st).stopCalls = s.stopCalls := rfl
@[simp] theorem State.setStep_log (s : State) (st : Stage) : (s.setStep st).log = s.log := rfl
@[simp] theorem State.setStep_inputs (s : State) (st : Stage) : (s.setStep st).inputs = s.inputs := rfl

/-! ## setLatches -/

@[simp] theorem State.setLatches_pc (s : State) (a : Addr) : (s.setLatches a).pc = s.pc := rfl
@[simp] theorem State.setLatches_acc (s : State) (a : Addr) : (s.setLatches a).acc = s.acc := rfl
@[simp] theorem State.setLatches_xReg (s : State) (a : Addr) : (s.setLatches a).xReg = s.xReg := rfl
@[simp] theorem State.setLatches_yReg (s : State) (a : Addr) : (s.setLatches a).yReg = s.yReg := rfl
@[simp] theorem State.setLatches_zFlag (s : State) (a : Addr) : (s.setLatches a).zFlag = s.zFlag := rfl
@[simp] theorem State.setLatches_ir (s : State) (a : Addr) : (s.setLatches a).ir = s.ir := rfl
@[simp] theorem State.setLatches_opp (s : State) (a : Addr) : (s.setLatches a).opp = s.opp := rfl
@[simp] theorem State.setLatches_irx (s : State) (a : Addr) : (s.setLatches a).irx = hiByte a := rfl
@[simp] theorem State.setLatches_iry (s : State) (a : Addr) : (s.setLatches a).iry = loByte a := rfl
@[simp] theorem State.setLatches_step (s : State) (a : Addr) : (s.setLatches a).step = s.step := rfl
@[simp] theorem State.setLatches_stepCounter (s : State) (a : Addr) : (s.setLatches a).stepCounter = s.stepCounter := rfl
@[simp] theorem State.setLatches_halted (s : State) (a : Addr) : (s.setLatches a).halted = s.halted := rfl
@[simp] theorem State.setLatches_out (s : State) (a : Addr) : (s.setLatches a).out = s.out := rfl
@[simp] theorem State.setLatches_mem (s : State) (a : Addr) : (s.setLatches a).mem = s.mem := rfl
@[simp] theorem State.setLatches_mar (s : State) (a : Addr) : (s.setLatches a).mar = s.mar := rfl
@[simp] theorem State.setLatches_mdr (s : State) (a : Addr) : (s.setLatches a).mdr = s.mdr := rfl
@[simp] theorem State.setLatches_queue (s : State) (a : Addr) : (s.setLatches a).queue = s.queue := rfl
@[simp] theorem State.setLatches_devices (s : State) (a : Addr) : (s.setLatches a).devices = s.devices := rfl
@[simp] theorem State.setLatches_controllerDebug (s : State) (a : Addr) : (s.setLatches a).controllerDebug = s.controllerDebug := rfl
@[simp] theorem State.setLatches_deviceTable (s : State) (a : Addr) : (s.setLatches a).deviceTable = s.deviceTable := rfl
@[simp] theorem State.setLatches_listeners (s : State) (a : Addr) : (s.setLatches a).listeners = s.listeners := rfl
@[simp] theorem State.setLatches_running (s : State) (a : Addr) : (s.setLatches a).running = s.running := rfl
@[simp] theorem State.setLatches_stopCalls (s : State) (a : Addr) : (s.setLatches a).stopCalls = s.stopCalls := rfl
@[simp] theorem State.setLatches_log (s : State) (a : Addr) : (s.setLatches a).log = s.log := rfl
@[simp] theorem State.setLatches_inputs (s : State) (a : Addr) : (s.setLatches a).inputs = s.inputs := rfl

/-! ## raiseStop -/

@[simp] theorem State.raiseStop_pc (s : State) (r : StopReason) : (s.raiseStop r).pc = s.pc := rfl
@[simp] theorem State.raiseStop_acc (s : State) (r : StopReason) : (s.raiseStop r).acc = s.acc := rfl
@[simp] theorem State.raiseStop_xReg (s : State) (r : StopReason) : (s.raiseStop r).xReg = s.xReg := rfl
@[simp] theorem State.raiseStop_yReg (s : State) (r : StopReason) : (s.raiseStop r).yReg = s.yReg := rfl
@[simp] theorem State.raiseStop_zFlag (s : State) (r : StopReason) : (s.raiseStop r).zFlag = s.zFlag := rfl
@[simp] theorem State.raiseStop_ir (s : State) (r : StopReason) : (s.raiseStop r).ir = s.ir := rfl
@[simp] theorem State.raiseStop_opp (s : State) (r : StopReason) : (s.raiseStop r).opp = s.opp := rfl
@[simp] theorem State.raiseStop_irx (s : State) (r : StopReason) : (s.raiseStop r).irx = s.irx := rfl
@[simp] theorem State.raiseStop_iry (s : State) (r : StopReason) : (s.raiseStop r).iry = s.iry := rfl
@[simp] theorem State.raiseStop_step (s : State) (r : StopReason) : (s.raiseStop r).step = s.step := rfl
@[simp] theorem State.raiseStop_stepCounter (s : State) (r : StopReason) : (s.raiseStop r).stepCounter = s.stepCounter := rfl
@[simp] theorem State.raiseStop_halted (s : State) (r : StopReason) : (s.raiseStop r).halted = some r := rfl
@[simp] theorem State.raiseStop_out (s : State) (r : StopReason) : (s.raiseStop r).out = s.out := rfl
@[simp] theorem State.raiseStop_mem (s : State) (r : StopReason) : (s.raiseStop r).mem = s.mem := rfl
@[simp] theorem State.raiseStop_mar (s : State) (r : StopReason) : (s.raiseStop r).mar = s.mar := rfl
@[simp] theorem State.raiseStop_mdr (s : State) (r : StopReason) : (s.raiseStop r).mdr = s.mdr := rfl
@[simp] theorem State.raiseStop_queue (s : State) (r : StopReason) : (s.raiseStop r).queue = s.queue := rfl
@[simp] theorem State.raiseStop_devices (s : State) (r : StopReason) : (s.raiseStop r).devices = s.devices := rfl
@[simp] theorem State.raiseStop_controllerDebug (s : State) (r : StopReason) : (s.raiseStop r).controllerDebug = s.controllerDebug := rfl
@[simp] theorem State.raiseStop_deviceTable (s : State) (r : StopReason) : (s.raiseStop r).deviceTable = s.deviceTable := rfl
@[simp] theorem State.raiseStop_listeners (s : State) (r : StopReason) : (s.raiseStop r).listeners = s.listeners := rfl
@[simp] theorem State.raiseStop_running (s : State) (r : StopReason) : (s.raiseStop r).running = s.running := rfl
@[simp] theorem State.raiseStop_stopCalls (s : State) (r : StopReason) : (s.raiseStop r).stopCalls = s.stopCalls + 1 := rfl
@[simp] theorem State.raiseStop_log (s : State) (r : StopReason) : (s.raiseStop r).log = s.log := rfl
@[simp] theorem State.raiseStop_inputs (s : State) (r : StopReason) : (s.raiseStop r).inputs = s.inputs := rfl

/-! ## emit -/

@[simp] theorem State.emit_pc (s : State) (item : OutItem) : (s.emit item).pc = s.pc := rfl
@[simp] theorem State.emit_acc (s : State) (item : OutItem) : (s.emit item).acc = s.acc := rfl
@[simp] theorem State.emit_xReg (s : State) (item : OutItem) : (s.emit item).xReg = s.xReg := rfl
@[simp] theorem State.emit_yReg (s : State) (item : OutItem) : (s.emit item).yReg = s.yReg := rfl
@[simp] theorem State.emit_zFlag (s : State) (item : OutItem) : (s.emit item).zFlag = s.zFlag := rfl
@[simp] theorem State.emit_ir (s : State) (item : OutItem) : (s.emit item).ir = s.ir := rfl
@[simp] theorem State.emit_opp (s : State) (item : OutItem) : (s.emit item).opp = s.opp := rfl
@[simp] theorem State.emit_irx (s : State) (item : OutItem) : (s.emit item).irx = s.irx := rfl
@[simp] theorem State.emit_iry (s : State) (item : OutItem) : (s.emit item).iry = s.iry := rfl
@[simp] theorem State.emit_step (s : State) (item : OutItem) : (s.emit item).step = s.step := rfl
@[simp] theorem State.emit_stepCounter (s : State) (item : OutItem) : (s.emit item).stepCounter = s.stepCounter := rfl
@[simp] theorem State.emit_halted (s : State) (item : OutItem) : (s.emit item).halted = s.halted := rfl
@[simp] theorem State.emit_out (s : State) (item : OutItem) : (s.emit item).out = s.out ++ [item] := rfl
@[simp] theorem State.emit_mem (s : State) (item : OutItem) : (s.emit item).mem = s.mem := rfl
@[simp] theorem State.emit_mar (s : State) (item : OutItem) : (s.emit item).mar = s.mar := rfl
@[simp] theorem State.emit_mdr (s : State) (item : OutItem) : (s.emit item).mdr = s.mdr := rfl
@[simp] theorem State.emit_queue (s : State) (item : OutItem) : (s.emit item).queue = s.queue := rfl
@[simp] theorem State.emit_devices (s : State) (item : OutItem) : (s.emit item).devices = s.devices := rfl
@[simp] theorem State.emit_controllerDebug (s : State) (item : OutItem) : (s.emit item).controllerDebug = s.controllerDebug := rfl
@[simp] theorem State.emit_deviceTable (s : State) (item : OutItem) : (s.emit item).deviceTable = s.deviceTable := rfl
@[simp] theorem State.emit_listeners (s : State) (item : OutItem) : (s.emit item).listeners = s.listeners := rfl
@[simp] theorem State.emit_running (s : State) (item : OutItem) : (s.emit item).running = s.running := rfl
@[simp] theorem State.emit_stopCalls (s : State) (item : OutItem) : (s.emit item).stopCalls = s.stopCalls := rfl
@[simp] theorem State.emit_log (s : State) (item : OutItem) : (s.emit item).log = s.log := rfl
@[simp] theorem State.emit_inputs (s : State) (item : OutItem) : (s.emit item).inputs = s.inputs := rfl

/-! ## latchFetch -/

@[simp] theorem State.latchFetch_pc (s : State) (b : Byte) : (s.latchFetch b).pc = s.pc + 1 := rfl
@[simp] theorem State.latchFetch_acc (s : State) (b : Byte) : (s.latchFetch b).acc = s.acc := rfl
@[simp] theorem State.latchFetch_xReg (s : State) (b : Byte) : (s.latchFetch b).xReg = s.xReg := rfl
@[simp] theorem State.latchFetch_yReg (s : State) (b : Byte) : (s.latchFetch b).yReg = s.yReg := rfl
@[simp] theorem State.latchFetch_zFlag (s : State) (b : Byte) : (s.latchFetch b).zFlag = s.zFlag := rfl
@[simp] theorem State.latchFetch_ir (s : State) (b : Byte) : (s.latchFetch b).ir = s.ir := rfl
@[simp] theorem State.latchFetch_opp (s : State) (b : Byte) : (s.latchFetch b).opp = b := rfl
@[simp] theorem State.latchFetch_irx (s : State) (b : Byte) : (s.latchFetch b).irx = s.irx := rfl
@[simp] theorem State.latchFetch_iry (s : State) (b : Byte) : (s.latchFetch b).iry = s.iry := rfl
@[simp] theorem State.latchFetch_step (s : State) (b : Byte) : (s.latchFetch b).step = s.step.succ := rfl
@[simp] theorem State.latchFetch_stepCounter (s : State) (b : Byte) : (s.latchFetch b).stepCounter = s.stepCounter + 1 := rfl
@[simp] theorem State.latchFetch_halted (s : State) (b : Byte) : (s.latchFetch b).halted = s.halted := rfl
@[simp] theorem State.latchFetch_out (s : State) (b : Byte) : (s.latchFetch b).out = s.out := rfl
@[simp] theorem State.latchFetch_mem (s : State) (b : Byte) : (s.latchFetch b).mem = s.mem := rfl
@[simp] theorem State.latchFetch_mar (s : State) (b : Byte) : (s.latchFetch b).mar = fetchAddr s.pc := rfl
@[simp] theorem State.latchFetch_mdr (s : State) (b : Byte) : (s.latchFetch b).mdr = b := rfl
@[simp] theorem State.latchFetch_queue (s : State) (b : Byte) : (s.latchFetch b).queue = s.queue := rfl
@[simp] theorem State.latchFetch_devices (s : State) (b : Byte) : (s.latchFetch b).devices = s.devices := rfl
@[simp] theorem State.latchFetch_controllerDebug (s : State) (b : Byte) : (s.latchFetch b).controllerDebug = s.controllerDebug := rfl
@[simp] theorem State.latchFetch_deviceTable (s : State) (b : Byte) : (s.latchFetch b).deviceTable = s.deviceTable := rfl
@[simp] theorem State.latchFetch_listeners (s : State) (b : Byte) : (s.latchFetch b).listeners = s.listeners := rfl
@[simp] theorem State.latchFetch_running (s : State) (b : Byte) : (s.latchFetch b).running = s.running := rfl
@[simp] theorem State.latchFetch_stopCalls (s : State) (b : Byte) : (s.latchFetch b).stopCalls = s.stopCalls := rfl
@[simp] theorem State.latchFetch_log (s : State) (b : Byte) : (s.latchFetch b).log = s.log := rfl
@[simp] theorem State.latchFetch_inputs (s : State) (b : Byte) : (s.latchFetch b).inputs = s.inputs := rfl

/-! ## decodeOpcode -/

@[simp] theorem State.decodeOpcode_pc (s : State) : s.decodeOpcode.pc = s.pc := rfl
@[simp] theorem State.decodeOpcode_acc (s : State) : s.decodeOpcode.acc = s.acc := rfl
@[simp] theorem State.decodeOpcode_xReg (s : State) : s.decodeOpcode.xReg = s.xReg := rfl
@[simp] theorem State.decodeOpcode_yReg (s : State) : s.decodeOpcode.yReg = s.yReg := rfl
@[simp] theorem State.decodeOpcode_zFlag (s : State) : s.decodeOpcode.zFlag = s.zFlag := rfl
@[simp] theorem State.decodeOpcode_ir (s : State) : s.decodeOpcode.ir = s.opp := rfl
@[simp] theorem State.decodeOpcode_opp (s : State) : s.decodeOpcode.opp = s.opp := rfl
@[simp] theorem State.decodeOpcode_irx (s : State) : s.decodeOpcode.irx = s.irx := rfl
@[simp] theorem State.decodeOpcode_iry (s : State) : s.decodeOpcode.iry = s.iry := rfl
@[simp] theorem State.decodeOpcode_step (s : State) : s.decodeOpcode.step = .decodeOperand := rfl
@[simp] theorem State.decodeOpcode_stepCounter (s : State) : s.decodeOpcode.stepCounter = s.stepCounter + 1 := rfl
@[simp] theorem State.decodeOpcode_halted (s : State) : s.decodeOpcode.halted = s.halted := rfl
@[simp] theorem State.decodeOpcode_out (s : State) : s.decodeOpcode.out = s.out := rfl
@[simp] theorem State.decodeOpcode_mem (s : State) : s.decodeOpcode.mem = s.mem := rfl
@[simp] theorem State.decodeOpcode_mar (s : State) : s.decodeOpcode.mar = s.mar := rfl
@[simp] theorem State.decodeOpcode_mdr (s : State) : s.decodeOpcode.mdr = s.mdr := rfl
@[simp] theorem State.decodeOpcode_queue (s : State) : s.decodeOpcode.queue = s.queue := rfl
@[simp] theorem State.decodeOpcode_devices (s : State) : s.decodeOpcode.devices = s.devices := rfl
@[simp] theorem State.decodeOpcode_controllerDebug (s : State) : s.decodeOpcode.controllerDebug = s.controllerDebug := rfl
@[simp] theorem State.decodeOpcode_deviceTable (s : State) : s.decodeOpcode.deviceTable = s.deviceTable := rfl
@[simp] theorem State.decodeOpcode_listeners (s : State) : s.decodeOpcode.listeners = s.listeners := rfl
@[simp] theorem State.decodeOpcode_running (s : State) : s.decodeOpcode.running = s.running := rfl
@[simp] theorem State.decodeOpcode_stopCalls (s : State) : s.decodeOpcode.stopCalls = s.stopCalls := rfl
@[simp] theorem State.decodeOpcode_log (s : State) : s.decodeOpcode.log = s.log := rfl
@[simp] theorem State.decodeOpcode_inputs (s : State) : s.decodeOpcode.inputs = s.inputs := rfl

/-! ## latchHigh -/

@[simp] theorem State.latchHigh_pc (s : State) : s.latchHigh.pc = s.pc := rfl
@[simp] theorem State.latchHigh_acc (s : State) : s.latchHigh.acc = s.acc := rfl
@[simp] theorem State.latchHigh_xReg (s : State) : s.latchHigh.xReg = s.xReg := rfl
@[simp] theorem State.latchHigh_yReg (s : State) : s.latchHigh.yReg = s.yReg := rfl
@[simp] theorem State.latchHigh_zFlag (s : State) : s.latchHigh.zFlag = s.zFlag := rfl
@[simp] theorem State.latchHigh_ir (s : State) : s.latchHigh.ir = s.ir := rfl
@[simp] theorem State.latchHigh_opp (s : State) : s.latchHigh.opp = s.opp := rfl
@[simp] theorem State.latchHigh_irx (s : State) : s.latchHigh.irx = s.opp := rfl
@[simp] theorem State.latchHigh_iry (s : State) : s.latchHigh.iry = s.iry := rfl
@[simp] theorem State.latchHigh_step (s : State) : s.latchHigh.step = .decodeOperand := rfl
@[simp] theorem State.latchHigh_stepCounter (s : State) : s.latchHigh.stepCounter = s.stepCounter := rfl
@[simp] theorem State.latchHigh_halted (s : State) : s.latchHigh.halted = s.halted := rfl
@[simp] theorem State.latchHigh_out (s : State) : s.latchHigh.out = s.out := rfl
@[simp] theorem State.latchHigh_mem (s : State) : s.latchHigh.mem = s.mem := rfl
@[simp] theorem State.latchHigh_mar (s : State) : s.latchHigh.mar = s.mar := rfl
@[simp] theorem State.latchHigh_mdr (s : State) : s.latchHigh.mdr = s.mdr := rfl
@[simp] theorem State.latchHigh_queue (s : State) : s.latchHigh.queue = s.queue := rfl
@[simp] theorem State.latchHigh_devices (s : State) : s.latchHigh.devices = s.devices := rfl
@[simp] theorem State.latchHigh_controllerDebug (s : State) : s.latchHigh.controllerDebug = s.controllerDebug := rfl
@[simp] theorem State.latchHigh_deviceTable (s : State) : s.latchHigh.deviceTable = s.deviceTable := rfl
@[simp] theorem State.latchHigh_listeners (s : State) : s.latchHigh.listeners = s.listeners := rfl
@[simp] theorem State.latchHigh_running (s : State) : s.latchHigh.running = s.running := rfl
@[simp] theorem State.latchHigh_stopCalls (s : State) : s.latchHigh.stopCalls = s.stopCalls := rfl
@[simp] theorem State.latchHigh_log (s : State) : s.latchHigh.log = s.log := rfl
@[simp] theorem State.latchHigh_inputs (s : State) : s.latchHigh.inputs = s.inputs := rfl

/-! ## latchLow -/

@[simp] theorem State.latchLow_pc (s : State) : s.latchLow.pc = s.pc := rfl
@[simp] theorem State.latchLow_acc (s : State) : s.latchLow.acc = s.acc := rfl
@[simp] theorem State.latchLow_xReg (s : State) : s.latchLow.xReg = s.xReg := rfl
@[simp] theorem State.latchLow_yReg (s : State) : s.latchLow.yReg = s.yReg := rfl
@[simp] theorem State.latchLow_zFlag (s : State) : s.latchLow.zFlag = s.zFlag := rfl
@[simp] theorem State.latchLow_ir (s : State) : s.latchLow.ir = s.ir := rfl
@[simp] theorem State.latchLow_opp (s : State) : s.latchLow.opp = s.opp := rfl
@[simp] theorem State.latchLow_irx (s : State) : s.latchLow.irx = s.irx := rfl
@[simp] theorem State.latchLow_iry (s : State) : s.latchLow.iry = s.opp := rfl
@[simp] theorem State.latchLow_step (s : State) : s.latchLow.step = s.step := rfl
@[simp] theorem State.latchLow_stepCounter (s : State) : s.latchLow.stepCounter = s.stepCounter := rfl
@[simp] theorem State.latchLow_halted (s : State) : s.latchLow.halted = s.halted := rfl
@[simp] theorem State.latchLow_out (s : State) : s.latchLow.out = s.out := rfl
@[simp] theorem State.latchLow_mem (s : State) : s.latchLow.mem = s.mem := rfl
@[simp] theorem State.latchLow_mar (s : State) : s.latchLow.mar = s.mar := rfl
@[simp] theorem State.latchLow_mdr (s : State) : s.latchLow.mdr = s.mdr := rfl
@[simp] theorem State.latchLow_queue (s : State) : s.latchLow.queue = s.queue := rfl
@[simp] theorem State.latchLow_devices (s : State) : s.latchLow.devices = s.devices := rfl
@[simp] theorem State.latchLow_controllerDebug (s : State) : s.latchLow.controllerDebug = s.controllerDebug := rfl
@[simp] theorem State.latchLow_deviceTable (s : State) : s.latchLow.deviceTable = s.deviceTable := rfl
@[simp] theorem State.latchLow_listeners (s : State) : s.latchLow.listeners = s.listeners := rfl
@[simp] theorem State.latchLow_running (s : State) : s.latchLow.running = s.running := rfl
@[simp] theorem State.latchLow_stopCalls (s : State) : s.latchLow.stopCalls = s.stopCalls := rfl
@[simp] theorem State.latchLow_log (s : State) : s.latchLow.log = s.log := rfl
@[simp] theorem State.latchLow_inputs (s : State) : s.latchLow.inputs = s.inputs := rfl

/-! ## setDevice -/

@[simp] theorem State.setDevice_pc (s : State) (d : Nat) (dev : Device) : (s.setDevice d dev).pc = s.pc := rfl
@[simp] theorem State.setDevice_acc (s : State) (d : Nat) (dev : Device) : (s.setDevice d dev).acc = s.acc := rfl
@[simp] theorem State.setDevice_xReg (s : State) (d : Nat) (dev : Device) : (s.setDevice d dev).xReg = s.xReg := rfl
@[simp] theorem State.setDevice_yReg (s : State) (d : Nat) (dev : Device) : (s.setDevice d dev).yReg = s.yReg := rfl
@[simp] theorem State.setDevice_zFlag (s : State) (d : Nat) (dev : Device) : (s.setDevice d dev).zFlag = s.zFlag := rfl
@[simp] theorem State.setDevice_ir (s : State) (d : Nat) (dev : Device) : (s.setDevice d dev).ir = s.ir := rfl
@[simp] theorem State.setDevice_opp (s : State) (d : Nat) (dev : Device) : (s.setDevice d dev).opp = s.opp := rfl
@[simp] theorem State.setDevice_irx (s : State) (d : Nat) (dev : Device) : (s.setDevice d dev).irx = s.irx := rfl
@[simp] theorem State.setDevice_iry (s : State) (d : Nat) (dev : Device) : (s.setDevice d dev).iry = s.iry := rfl
@[simp] theorem State.setDevice_step (s : State) (d : Nat) (dev : Device) : (s.setDevice d dev).step = s.step := rfl
@[simp] theorem State.setDevice_stepCounter (s : State) (d : Nat) (dev : Device) : (s.setDevice d dev).stepCounter = s.stepCounter := rfl
@[simp] theorem State.setDevice_halted (s : State) (d : Nat) (dev : Device) : (s.setDevice d dev).halted = s.halted := rfl
@[simp] theorem State.setDevice_out (s : State) (d : Nat) (dev : Device) : (s.setDevice d dev).out = s.out := rfl
@[simp] theorem State.setDevice_mem (s : State) (d : Nat) (dev : Device) : (s.setDevice d dev).mem = s.mem := rfl
@[simp] theorem State.setDevice_mar (s : State) (d : Nat) (dev : Device) : (s.setDevice d dev).mar = s.mar := rfl
@[simp] theorem State.setDevice_mdr (s : State) (d : Nat) (dev : Device) : (s.setDevice d dev).mdr = s.mdr := rfl
@[simp] theorem State.setDevice_queue (s : State) (d : Nat) (dev : Device) : (s.setDevice d dev).queue = s.queue := rfl
@[simp] theorem State.setDevice_devices (s : State) (d : Nat) (dev : Device) : (s.setDevice d dev).devices = s.devices := rfl
@[simp] theorem State.setDevice_controllerDebug (s : State) (d : Nat) (dev : Device) : (s.setDevice d dev).controllerDebug = s.controllerDebug := rfl
@[simp] theorem State.setDevice_deviceTable (s : State) (d : Nat) (dev : Device) : (s.setDevice d dev).deviceTable = s.deviceTable.set d dev := rfl
@[simp] theorem State.setDevice_listeners (s : State) (d : Nat) (dev : Device) : (s.setDevice d dev).listeners = s.listeners := rfl
@[simp] theorem State.setDevice_running (s : State) (d : Nat) (dev : Device) : (s.setDevice d dev).running = s.running := rfl
@[simp] theorem State.setDevice_stopCalls (s : State) (d : Nat) (dev : Device) : (s.setDevice d dev).stopCalls = s.stopCalls := rfl
@[simp] theorem State.setDevice_log (s : State) (d : Nat) (dev : Device) : (s.setDevice d dev).log = s.log := rfl
@[simp] theorem State.setDevice_inputs (s : State) (d : Nat) (dev : Device) : (s.setDevice d dev).inputs = s.inputs := rfl

/-! ## start -/

@[simp] theorem State.start_pc (s : State) : s.start.pc = s.pc := rfl
@[simp] theorem State.start_acc (s : State) : s.start.acc = s.acc := rfl
@[simp] theorem State.start_xReg (s : State) : s.start.xReg = s.xReg := rfl
@[simp] theorem State.start_yReg (s : State) : s.start.yReg = s.yReg := rfl
@[simp] theorem State.start_zFlag (s : State) : s.start.zFlag = s.zFlag := rfl
@[simp] theorem State.start_ir (s : State) : s.start.ir = s.ir := rfl
@[simp] theorem State.start_opp (s : State) : s.start.opp = s.opp := rfl
@[simp] theorem State.start_irx (s : State) : s.start.irx = s.irx := rfl
@[simp] theorem State.start_iry (s : State) : s.start.iry = s.iry := rfl
@[simp] theorem State.start_step (s : State) : s.start.step = s.step := rfl
@[simp] theorem State.start_stepCounter (s : State) : s.start.stepCounter = s.stepCounter := rfl
@[simp] theorem State.start_halted (s : State) : s.start.halted = s.halted := rfl
@[simp] theorem State.start_out (s : State) : s.start.out = s.out := rfl
@[simp] theorem State.start_mem (s : State) : s.start.mem = s.mem := rfl
@[simp] theorem State.start_mar (s : State) : s.start.mar = s.mar := rfl
@[simp] theorem State.start_mdr (s : State) : s.start.mdr = s.mdr := rfl
@[simp] theorem State.start_queue (s : State) : s.start.queue = s.queue := rfl
@[simp] theorem State.start_devices (s : State) : s.start.devices = s.devices := rfl
@[simp] theorem State.start_controllerDebug (s : State) : s.start.controllerDebug = s.controllerDebug := rfl
@[simp] theorem State.start_deviceTable (s : State) : s.start.deviceTable = s.deviceTable := rfl
@[simp] theorem State.start_listeners (s : State) : s.start.listeners = s.listeners := rfl
@[simp] theorem State.start_running (s : State) : s.start.running = true := rfl
@[simp] theorem State.start_stopCalls (s : State) : s.start.stopCalls = s.stopCalls := rfl
@[simp] theorem State.start_log (s : State) : s.start.log = s.log := rfl
@[simp] theorem State.start_inputs (s : State) : s.start.inputs = s.inputs := rfl

/-! ## stop -/

@[simp] theorem State.stop_pc (s : State) : s.stop.pc = s.pc := rfl
@[simp] theorem State.stop_acc (s : State) : s.stop.acc = s.acc := rfl
@[simp] theorem State.stop_xReg (s : State) : s.stop.xReg = s.xReg := rfl
@[simp] theorem State.stop_yReg (s : State) : s.stop.yReg = s.yReg := rfl
@[simp] theorem State.stop_zFlag (s : State) : s.stop.zFlag = s.zFlag := rfl
@[simp] theorem State.stop_ir (s : State) : s.stop.ir = s.ir := rfl
@[simp] theorem State.stop_opp (s : State) : s.stop.opp = s.opp := rfl
@[simp] theorem State.stop_irx (s : State) : s.stop.irx = s.irx := rfl
@[simp] theorem State.stop_iry (s : State) : s.stop.iry = s.iry := rfl
@[simp] theorem State.stop_step (s : State) : s.stop.step = s.step := rfl
@[simp] theorem State.stop_stepCounter (s : State) : s.stop.stepCounter = s.stepCounter := rfl
@[simp] theorem State.stop_halted (s : State) : s.stop.halted = s.halted := rfl
@[simp] theorem State.stop_out (s : State) : s.stop.out = s.out := rfl
@[simp] theorem State.stop_mem (s : State) : s.stop.mem = s.mem := rfl
@[simp] theorem State.stop_mar (s : State) : s.stop.mar = s.mar := rfl
@[simp] theorem State.stop_mdr (s : State) : s.stop.mdr = s.mdr := rfl
@[simp] theorem State.stop_queue (s : State) : s.stop.queue = s.queue := rfl
@[simp] theorem State.stop_devices (s : State) : s.stop.devices = s.devices := rfl
@[simp] theorem State.stop_controllerDebug (s : State) : s.stop.controllerDebug = s.controllerDebug := rfl
@[simp] theorem State.stop_deviceTable (s : State) : s.stop.deviceTable = s.deviceTable := rfl
@[simp] theorem State.stop_listeners (s : State) : s.stop.listeners = s.listeners := rfl
@[simp] theorem State.stop_running (s : State) : s.stop.running = false := rfl
@[simp] theorem State.stop_stopCalls (s : State) : s.stop.stopCalls = s.stopCalls := rfl
@[simp] theorem State.stop_log (s : State) : s.stop.log = s.log := rfl
@[simp] theorem State.stop_inputs (s : State) : s.stop.inputs = s.inputs := rfl

end Sys2Proof.Machine
end

