-- ==== Sys2Proof/Laws/Ops.lean ====
section
/-! SUPPORT. For each shared operation, once, everything it can do: what provers cite instead of unfolding it. -/

namespace Sys2Proof.Machine

/-! ## The register protocol -/

theorem State.setAddress_eq (s : State) (f : AddrForm) : s.setAddress f = { s with mar := f.addr } := by
  cases f with
  | int n => rfl
  | pair b0 b1 => simp [State.setAddress, State.setMarHigh, State.setMarLow, AddrForm.addr]

theorem State.readImmediate_eq (s : State) (f : AddrForm) :
    s.readImmediate f = { s with mar := f.addr, mdr := s.byteAt f.addr } := by
  simp [State.readImmediate, State.setAddress_eq, State.readCell, State.byteAt]

theorem State.writeImmediate_eq (s : State) (f : AddrForm) (v : Byte) :
    s.writeImmediate f v = { s with mar := f.addr, mdr := v, mem := Memory.write s.mem (cellIndex f.addr).toNat v } := by
  simp [State.writeImmediate, State.setAddress_eq, State.setMdr, State.writeCell]

theorem State.readLatched_eq (s : State) :
    s.readLatched = { s with mar := s.latched, mdr := s.byteAt s.latched } :=
  State.readImmediate_eq s _

theorem State.writeLatched_eq (s : State) (v : Byte) :
    s.writeLatched v =
      { s with mar := s.latched, mdr := v, mem := Memory.write s.mem (cellIndex s.latched).toNat v } :=
  State.writeImmediate_eq s _ v

theorem State.absolute_eq (s : State) :
    s.absolute = (s.byteAt s.latched, { s with mar := s.latched, mdr := s.byteAt s.latched }) := by
  simp [State.absolute, State.readLatched_eq, State.getMdr]

/-- Distinct architectural addresses reach distinct cells. -/
theorem cellIndex_inj {a b : Addr} (h : cellIndex a = cellIndex b) : a = b := by
  obtain ⟨hlo, hhi⟩ := pairAddr_inj h
  rw [← pairAddr_bytes a, ← pairAddr_bytes b, hlo, hhi]

/-- The one byte a store changes, for any state whose array is that of `s` after a write at address `a`. -/
theorem State.byteAt_of_write {s t : State} {a : Addr} {v : Byte}
    (h : t.mem = Memory.write s.mem (cellIndex a).toNat v) (b : Addr) :
    t.byteAt b = if b = a then v else s.byteAt b := by
  unfold State.byteAt
  rw [h, Memory.read_write]
  by_cases hb : b = a
  · simp [hb]
  · have : (cellIndex b).toNat ≠ (cellIndex a).toNat := fun e => hb (cellIndex_inj (BitVec.eq_of_toNat_eq e))
    simp [hb, this]

theorem State.byteAt_congr {s t : State} (h : t.mem = s.mem) (a : Addr) : t.byteAt a = s.byteAt a := by
  simp [State.byteAt, h]

/-! ## The course of an instruction -/

theorem State.issueDirect_eq (s : State) (op : Byte) :
    s.issueDirect op =
      { s with mar := fetchAddr s.pc, mdr := op, opp := op, ir := op, pc := s.pc + 1, step := .execute,
               stepCounter := s.stepCounter + 2 } := rfl

theorem State.issueOperand_eq (s : State) (op b : Byte) :
    s.issueOperand op b =
      { s with mar := fetchAddr (s.pc + 1), mdr := b, opp := b, ir := op, pc := s.pc + 2, step := .execute,
               stepCounter := s.stepCounter + 3 } := by
  simp [State.issueOperand, State.latchFetch, State.decodeOpcode, Stage.succ, BitVec.add_assoc]

theorem State.issueAddress_eq (s : State) (op hi lo : Byte) :
    s.issueAddress op hi lo =
      { s with mar := fetchAddr (s.pc + 2), mdr := lo, opp := lo, ir := op, irx := hi, iry := lo, pc := s.pc + 3,
               step := .execute, stepCounter := s.stepCounter + 4 } := by
  simp [State.issueAddress, State.issueOperand_eq, State.latchFetch, State.latchHigh, State.latchLow, Stage.succ,
    BitVec.add_assoc]

/-! ## Interrupt service -/

theorem State.drain_eq (s : State) (d : Nat) (p : Port) :
    s.drain d p = { s with deviceTable := (s.drain d p).deviceTable, log := (s.drain d p).log } := by
  unfold State.drain
  split
  · rfl
  · split <;> rfl

/-- Interrupt service changes nothing but the pending queue, the device queues and the log. -/
theorem State.serviceInterrupt_eq (s : State) :
    s.serviceInterrupt =
      { s with queue := s.queue.tail, deviceTable := s.serviceInterrupt.deviceTable, log := s.serviceInterrupt.log } := by
  cases hq : s.queue with
  | nil =>
    simp only [State.serviceInterrupt, State.getInterrupt, hq, List.tail_nil]
    rw [← hq]
  | cons p rest =>
    simp only [State.serviceInterrupt, State.getInterrupt, hq, List.tail_cons]
    rw [State.drain_eq, State.drain_eq { s with queue := rest }]

/-- What interrupt service does to the queue, the devices and the log depends on these three alone. -/
theorem State.serviceInterrupt_congr {s t : State} (hq : t.queue = s.queue) (hd : t.deviceTable = s.deviceTable)
    (hl : t.log = s.log) :
    t.serviceInterrupt.deviceTable = s.serviceInterrupt.deviceTable ∧ t.serviceInterrupt.log = s.serviceInterrupt.log := by
  have drain_congr : ∀ (u v : State) (d : Nat) (p : Port), u.deviceTable = v.deviceTable → u.log = v.log →
      (u.drain d p).deviceTable = (v.drain d p).deviceTable ∧ (u.drain d p).log = (v.drain d p).log := by
    intro u v d p h1 h2
    unfold State.drain
    rw [h1]
    split
    · exact ⟨h1, h2⟩
    · split
      · exact ⟨h1, h2⟩
      · simp [h1, h2]
  cases h : s.queue with
  | nil =>
    simp only [State.serviceInterrupt, State.getInterrupt, hq, h]
    exact ⟨hd, hl⟩
  | cons p rest =>
    simp only [State.serviceInterrupt, State.getInterrupt, hq, h]
    obtain ⟨h1, h2⟩ := drain_congr { t with queue := rest } { s with queue := rest } p.device .input hd hl
    exact drain_congr _ _ _ .output h1 h2

/-- Stage 5 is interrupt service followed by the return to FETCH, in either order. -/
theorem State.interruptCheck_eq (s : State) :
    s.interruptCheck = State.serviceInterrupt { s with step := .fetch, stepCounter := 0 } := by
  rw [State.serviceInterrupt_eq { s with step := .fetch, stepCounter := 0 }]
  obtain ⟨hd, hl⟩ := State.serviceInterrupt_congr (s := s) (t := { s with step := .fetch, stepCounter := 0 }) rfl rfl rfl
  rw [hd, hl, State.interruptCheck, State.serviceInterrupt_eq s]

/-- Stages 4 and 5 of every instruction but INC. -/
theorem State.retire_eq {s : State} (h : s.ir ≠ 0xEE) :
    s.retire = State.serviceInterrupt { s with step := .fetch, stepCounter := 0 } := by
  simp only [State.retire, State.writeback, if_neg h, State.interruptCheck_eq, State.setStep]

/-- Stages 4 and 5 of INC. -/
theorem State.retire_inc {s : State} (h : s.ir = 0xEE) :
    s.retire = State.serviceInterrupt
      { s with mar := s.latched, mdr := s.byteAt s.latched + 1,
               mem := Memory.write s.mem (cellIndex s.latched).toNat (s.byteAt s.latched + 1),
               step := .fetch, stepCounter := 0 } := by
  simp only [State.retire, State.writeback, h, if_true, State.interruptCheck_eq, State.incrementCell, State.readLatched_eq,
    State.writeLatched_eq, State.setStep, State.getMdr]
  rfl

/-! ## The string loop -/

theorem State.stringPass_zero {s : State} (h : s.byteAt s.latched = 0) :
    s.stringPass = { s with mar := s.latched, mdr := 0, step := .writeback } := by
  simp [State.stringPass, State.absolute_eq, h, State.setStep]

theorem State.stringPass_char {s : State} (h : s.byteAt s.latched ≠ 0) :
    s.stringPass =
      { s with mar := s.latched, mdr := s.byteAt s.latched, out := s.out ++ [.char (s.byteAt s.latched)],
               irx := hiByte (s.latched + 1), iry := loByte (s.latched + 1), stepCounter := s.stepCounter + 1 } := by
  simp only [State.stringPass, State.absolute_eq, if_neg h, State.emit, State.setLatches]

/-! ## Pulses and ticks -/

/-- Everything a CPU pulse that goes on can have done. -/
theorem State.cpuPulse_next {s t : State} (h : s.cpuPulse = .next t) :
    (s.halted.isSome = true ∧ t = s) ∨ (s.halted = none ∧ s.accInRange = true ∧ s.runStage = .next t) := by
  unfold State.cpuPulse at h
  split at h
  · next hh => injection h with h; exact .inl ⟨hh, h.symm⟩
  · next hh =>
    split at h
    · next ha => exact .inr ⟨by simpa using hh, ha, h⟩
    · cases h

/-- Everything the logic of a stage that goes on can have done. -/
theorem State.runStage_next {s t : State} (h : s.runStage = .next t) :
    (s.step = .fetch ∧ t = s.fetchRoutine) ∨ (s.step = .decodeOpcode ∧ t = s.decodeOpcode) ∨
    (s.step = .decodeOperand ∧ t = s.decodeOperand) ∨ (s.step = .execute ∧ s.execute = .next t) ∨
    (s.step = .writeback ∧ t = s.writeback) ∨ (s.step = .interruptCheck ∧ t = s.interruptCheck) := by
  unfold State.runStage at h
  split at h <;> simp_all

theorem State.cpuPulse_running {s : State} (h : s.halted = none) (ha : s.accInRange = true) : s.cpuPulse = s.runStage := by
  simp [State.cpuPulse, h, ha]

theorem State.cpuPulse_halted {s : State} (h : s.halted.isSome = true) : s.cpuPulse = .next s := by
  simp [State.cpuPulse, h]

@[simp] theorem andThen_next (s : State) (f : State → Host.Outcome State Fault Refusal) : andThen (.next s) f = f s := rfl

@[simp] theorem andThen_refused (r : Refusal) (f : State → Host.Outcome State Fault Refusal) :
    andThen (.refused r) f = .refused r := rfl

theorem andThen_next_right (o : Host.Outcome State Fault Refusal) : andThen o .next = o := by
  cases o <;> rfl

theorem andThen_assoc (o : Host.Outcome State Fault Refusal) (f g : State → Host.Outcome State Fault Refusal) :
    andThen (andThen o f) g = andThen o (fun s => andThen (f s) g) := by
  cases o <;> rfl

/-- A tick over listeners that hold the CPU once is one CPU pulse. -/
theorem State.pulseAll_one {ls : List Listener} {s : State} (h : ls.count .cpu = 1) : State.pulseAll ls s = s.cpuPulse := by
  have none_left : ∀ (ls : List Listener) (u : State), ls.count .cpu = 0 → State.pulseAll ls u = .next u := by
    intro ls
    induction ls with
    | nil => intro u _; rfl
    | cons l rest ih =>
      intro u hc
      cases l with
      | cpu => simp at hc
      | memory => simpa [State.pulseAll, State.pulse] using ih u (by simpa using hc)
      | controller => simpa [State.pulseAll, State.pulse] using ih u (by simpa using hc)
  induction ls with
  | nil => simp at h
  | cons l rest ih =>
    cases l with
    | cpu =>
      have hr : rest.count .cpu = 0 := by simpa using h
      simp only [State.pulseAll, State.pulse]
      cases hp : s.cpuPulse with
      | next u => simpa using none_left rest u hr
      | fault r => rfl
      | refused r => rfl
    | memory => simpa [State.pulseAll, State.pulse] using ih (by simpa using h)
    | controller => simpa [State.pulseAll, State.pulse] using ih (by simpa using h)

theorem State.tick_eq_cpuPulse {s : State} (hr : s.running = true) (hl : s.listeners.count .cpu = 1) :
    s.tick = s.cpuPulse := by
  simp [State.tick, hr, State.sendPulse, State.pulseAll_one hl]

theorem State.live_iff (s : State) :
    s.live = true ↔ s.running = true ∧ s.listeners.count .cpu = 1 ∧ s.halted = none ∧ s.accInRange = true := by
  simp [State.live, and_assoc]

/-- What it is to be ready. -/
theorem State.ready_iff (s : State) :
    s.ready = true ↔ s.live = true ∧ s.step = .fetch ∧ s.stepCounter = 0 := by
  simp [State.ready, and_assoc]

end Sys2Proof.Machine
end

