-- ==== Sys2Proof/Laws/Course.lean ====
section
/-! SUPPORT. The course of R151 tick by tick: what the ticks before stage 3 and after it do, for each length of
instruction. -/

namespace Sys2Proof.Machine

/-- One tick of a live machine is the stage that `step` selects. -/
theorem State.tick_live {s : State} (h : s.live = true) :
    s.tick = s.runStage := by
  obtain ⟨hr, hl, hh, ha⟩ := (State.live_iff s).1 h
  rw [State.tick_eq_cpuPulse hr hl, State.cpuPulse_running hh ha]

/-- Being live depends on four fields. -/
theorem State.live_congr {s t : State} (hr : t.running = s.running) (hl : t.listeners = s.listeners)
    (hh : t.halted = s.halted) (ha : t.acc = s.acc) : t.live = s.live := by
  simp [State.live, State.accInRange, hr, hl, hh, ha]

theorem State.runTicks_succ (n : Nat) (s : State) :
    State.runTicks (n + 1) s = andThen s.tick (State.runTicks n) := rfl

theorem State.runTicks_zero (s : State) : State.runTicks 0 s = .next s := rfl

theorem State.runTicks_add (m n : Nat) (s : State) :
    State.runTicks (m + n) s = andThen (State.runTicks m s) (State.runTicks n) := by
  induction m generalizing s with
  | zero => simp [State.runTicks_zero]
  | succ m ih =>
    rw [Nat.add_right_comm, State.runTicks_succ, State.runTicks_succ, andThen_assoc]
    congr 1
    funext u
    exact ih u

/-- The fetch routine is the latching of the byte at pc. -/
theorem State.fetchRoutine_eq (s : State) : s.fetchRoutine = s.latchFetch (s.byteAt (fetchAddr s.pc)) := rfl

/-- Pulses 1 and 2 of every instruction. -/
theorem State.runTicks_opcode {s : State} (h : s.ready = true) (n : Nat) :
    State.runTicks (n + 2) s = State.runTicks n (s.latchFetch (s.byteAt (fetchAddr s.pc))).decodeOpcode := by
  obtain ⟨hl, hs, hc⟩ := (State.ready_iff s).1 h
  have h1 : s.tick = .next s.fetchRoutine := by rw [State.tick_live hl]; simp [State.runStage, hs]
  have hl2 : s.fetchRoutine.live = true := by rw [← hl]; exact State.live_congr rfl rfl rfl rfl
  have h2 : s.fetchRoutine.tick = .next s.fetchRoutine.decodeOpcode := by
    rw [State.tick_live hl2]
    simp [State.runStage, State.fetchRoutine_eq, hs, Stage.succ]
  rw [show n + 2 = n + 1 + 1 from rfl, State.runTicks_succ, h1, andThen_next, State.runTicks_succ, h2, andThen_next]
  rfl

/-- Pulses 1 to 3 of an instruction that has no operand byte. -/
theorem State.runTicks_issueDirect {s : State} {op : Byte} (h : s.ready = true) (hb : s.byteAt (fetchAddr s.pc) = op)
    (hd : ∀ u : State, u.ir = op → u.xReg = s.xReg → u.decodeOperand = u.setStep .execute) (n : Nat) :
    State.runTicks (n + 3) s = State.runTicks n (s.issueDirect op) := by
  obtain ⟨hl, hs, hc⟩ := (State.ready_iff s).1 h
  rw [show n + 3 = n + 1 + 2 from rfl, State.runTicks_opcode h, hb, State.runTicks_succ]
  have hl3 : (s.latchFetch op).decodeOpcode.live = true := by rw [← hl]; exact State.live_congr rfl rfl rfl rfl
  rw [State.tick_live hl3]
  simp only [State.runStage, State.decodeOpcode_step, andThen_next]
  rw [hd (s.latchFetch op).decodeOpcode rfl rfl]
  rfl

/-- Pulses 1 to 3 of an instruction with an operand byte. -/
theorem State.runTicks_issueOperand {s : State} {op b : Byte} (h : s.ready = true)
    (hb : s.byteAt (fetchAddr s.pc) = op) (hb2 : s.byteAt (fetchAddr (s.pc + 1)) = b)
    (hd : ∀ u : State, u.ir = op → u.xReg = s.xReg → u.decodeOperand = u.fetchRoutine) (n : Nat) :
    State.runTicks (n + 3) s = State.runTicks n (s.issueOperand op b) := by
  obtain ⟨hl, hs, hc⟩ := (State.ready_iff s).1 h
  rw [show n + 3 = n + 1 + 2 from rfl, State.runTicks_opcode h, hb, State.runTicks_succ]
  have hl3 : (s.latchFetch op).decodeOpcode.live = true := by rw [← hl]; exact State.live_congr rfl rfl rfl rfl
  rw [State.tick_live hl3]
  simp only [State.runStage, State.decodeOpcode_step, andThen_next]
  rw [hd (s.latchFetch op).decodeOpcode rfl rfl, State.fetchRoutine_eq]
  rw [show (s.latchFetch op).decodeOpcode.byteAt (fetchAddr (s.latchFetch op).decodeOpcode.pc) = b from hb2]
  rfl

/-- Pulses 1 to 5 of an instruction with two address bytes; the sixth, the second pass through stage 3, starts by keeping
the low byte. -/
theorem State.runTicks_issueAddress {s : State} {op hi lo : Byte} (h : s.ready = true)
    (hb : s.byteAt (fetchAddr s.pc) = op) (hb2 : s.byteAt (fetchAddr (s.pc + 1)) = hi)
    (hb3 : s.byteAt (fetchAddr (s.pc + 2)) = lo)
    (hd : ∀ u : State, u.ir = op → u.xReg = s.xReg → u.decodeOperand = u.fetchRoutine)
    (hx : ∀ u : State, u.ir = op → u.xReg = s.xReg → u.stepCounter = 3 → u.execute = .next u.latchHigh) (n : Nat) :
    State.runTicks (n + 5) s = State.runTicks n ((s.issueOperand op hi).latchHigh.latchFetch lo) := by
  obtain ⟨hl, hs, hc⟩ := (State.ready_iff s).1 h
  rw [show n + 5 = n + 2 + 3 from rfl, State.runTicks_issueOperand h hb hb2 hd, State.runTicks_succ]
  have hl4 : (s.issueOperand op hi).live = true := by rw [← hl]; exact State.live_congr rfl rfl rfl rfl
  rw [State.tick_live hl4, State.runStage]
  have hs4 : (s.issueOperand op hi).step = .execute := rfl
  rw [hs4]
  simp only
  rw [hx (s.issueOperand op hi) rfl rfl (by rw [State.issueOperand_eq]; simp [hc]), andThen_next, State.runTicks_succ]
  have hl5 : (s.issueOperand op hi).latchHigh.live = true := by rw [← hl]; exact State.live_congr rfl rfl rfl rfl
  rw [State.tick_live hl5]
  simp only [State.runStage, State.latchHigh_step, andThen_next]
  rw [hd (s.issueOperand op hi).latchHigh rfl rfl, State.fetchRoutine_eq]
  have hpc : (s.issueOperand op hi).latchHigh.pc = s.pc + 2 := by rw [State.latchHigh_pc, State.issueOperand_eq]
  have hbyte : (s.issueOperand op hi).latchHigh.byteAt (fetchAddr (s.issueOperand op hi).latchHigh.pc) = lo := by
    rw [hpc]; exact hb3
  rw [hbyte]

/-- The last two pulses of an instruction that is past stage 3. -/
theorem State.runTicks_retire {u : State} (h : u.live = true) (hs : u.step = .writeback) (n : Nat) :
    State.runTicks (n + 2) u = State.runTicks n u.retire := by
  have hinc : u.incrementCell.running = u.running ∧ u.incrementCell.listeners = u.listeners ∧
      u.incrementCell.halted = u.halted ∧ u.incrementCell.acc = u.acc := by
    simp [State.incrementCell, State.readLatched_eq, State.writeLatched_eq]
  have hw : u.writeback.live = true := by
    rw [← h]
    unfold State.writeback
    split
    · exact State.live_congr hinc.1 hinc.2.1 hinc.2.2.1 hinc.2.2.2
    · exact State.live_congr rfl rfl rfl rfl
  have hws : u.writeback.step = .interruptCheck := rfl
  rw [show n + 2 = n + 1 + 1 from rfl, State.runTicks_succ, State.tick_live h, State.runStage, hs]
  simp only [andThen_next]
  rw [State.runTicks_succ, State.tick_live hw, State.runStage, hws]
  rfl

end Sys2Proof.Machine
end

