-- ==== Sys2Proof/Laws/PerInstr.lean ====
section
/-! SUPPORT. The family of statements made per instruction: the encoding of an instruction is as long as its row of the
opcode table says, and as long as stage 2 finds it to be under every xReg that makes it well formed (R101, R107). -/

namespace Sys2Proof.Laws.EncodedLength

/-- The encoding has the row's length, begins with the row's opcode byte, and has the length of R107. -/
def Statement (i : Instr) : Prop :=
  (encode i).length = i.length ∧ (encode i).head? = some i.opcode.byte ∧
    ∀ x, i.wellFormed x = true → lengthOf i.opcode.byte x = some i.length

theorem ldaImm (imm : Byte) : Statement (.ldaImm imm) := ⟨rfl, rfl, fun _ _ => rfl⟩
theorem lda (hi lo : Byte) : Statement (.lda hi lo) := ⟨rfl, rfl, fun _ _ => rfl⟩
theorem sta (hi lo : Byte) : Statement (.sta hi lo) := ⟨rfl, rfl, fun _ _ => rfl⟩
theorem adc (hi lo : Byte) : Statement (.adc hi lo) := ⟨rfl, rfl, fun _ _ => rfl⟩
theorem ldxImm (imm : Byte) : Statement (.ldxImm imm) := ⟨rfl, rfl, fun _ _ => rfl⟩
theorem ldx (hi lo : Byte) : Statement (.ldx hi lo) := ⟨rfl, rfl, fun _ _ => rfl⟩
theorem ldyImm (imm : Byte) : Statement (.ldyImm imm) := ⟨rfl, rfl, fun _ _ => rfl⟩
theorem ldy (hi lo : Byte) : Statement (.ldy hi lo) := ⟨rfl, rfl, fun _ _ => rfl⟩
theorem cpx (hi lo : Byte) : Statement (.cpx hi lo) := ⟨rfl, rfl, fun _ _ => rfl⟩
theorem bne (off : Byte) : Statement (.bne off) := ⟨rfl, rfl, fun _ _ => rfl⟩
theorem inc (hi lo : Byte) : Statement (.inc hi lo) := ⟨rfl, rfl, fun _ _ => rfl⟩
theorem nop : Statement .nop := ⟨rfl, rfl, fun _ _ => rfl⟩

theorem sys : Statement .sys := ⟨rfl, rfl, fun x hx => by
  have : x = 1 := by simpa [Instr.wellFormed] using hx
  subst this; rfl⟩

theorem sysStr (hi lo : Byte) : Statement (.sysStr hi lo) := ⟨rfl, rfl, fun x hx => by
  have : x = 2 := by simpa [Instr.wellFormed] using hx
  subst this; rfl⟩

theorem brk : Statement .brk := ⟨rfl, rfl, fun _ _ => rfl⟩

end Sys2Proof.Laws.EncodedLength
end

