-- ==== Sys2Proof/Tests/Slice0.lean ====
section
/-! SUPPORT. The model's own tests, with expected values from spec/95_test_vectors.md, and a witness for the hypotheses of
every obligation that has some. -/

namespace Sys2Proof.Tests

open Sys2Proof.Machine

-- one theorem at a time: each kernel evaluation run beside the others holds a thread of its own
set_option Elab.async false

/-! ## Well-formedness -/

theorem test_sys_refused_without_selector :
    Instr.wellFormed 0 .sys = false ∧ Instr.wellFormed 2 .sys = false ∧ Instr.wellFormed 3 .sys = false := by decide

theorem test_sysStr_refused_without_selector :
    Instr.wellFormed 0 (.sysStr 0 0) = false ∧ Instr.wellFormed 1 (.sysStr 0 0) = false
      ∧ Instr.wellFormed 3 (.sysStr 0 0) = false := by decide

theorem test_wellFormed_accepts :
    Instr.wellFormed 1 .sys = true ∧ Instr.wellFormed 2 (.sysStr 0xFF 0xFF) = true ∧ Instr.wellFormed 0 (.ldaImm 0xFF) = true := by
  decide

/-! ## Decoding, on bytes written out from R101, R104 and R112 -/

theorem test_decode_ldaImm : decode 0 [0b10101001, 0x05] = .ok (.ldaImm 0x05, []) := by decide
theorem test_decode_lda : decode 0 [0b10101101, 0x00, 0x40] = .ok (.lda 0x00 0x40, []) := by decide
theorem test_decode_sta : decode 0 [0b10001101, 0x00, 0x40] = .ok (.sta 0x00 0x40, []) := by decide
theorem test_decode_adc : decode 0 [0b01101101, 0x12, 0x34] = .ok (.adc 0x12 0x34, []) := by decide
theorem test_decode_ldxImm : decode 0 [0b10100010, 0x02] = .ok (.ldxImm 0x02, []) := by decide
theorem test_decode_ldx : decode 0 [0b10101110, 0x01, 0x23] = .ok (.ldx 0x01 0x23, []) := by decide
theorem test_decode_ldyImm : decode 0 [0b10100000, 0x2A] = .ok (.ldyImm 0x2A, []) := by decide
theorem test_decode_ldy : decode 0 [0b10101100, 0xFF, 0xFE] = .ok (.ldy 0xFF 0xFE, []) := by decide
theorem test_decode_cpx : decode 0 [0b11101100, 0x00, 0x50] = .ok (.cpx 0x00 0x50, []) := by decide
theorem test_decode_bne : decode 0 [0b11010000, 0x0A] = .ok (.bne 0x0A, []) := by decide
theorem test_decode_inc : decode 0 [0b11101110, 0x00, 0x50] = .ok (.inc 0x00 0x50, []) := by decide
theorem test_decode_nop : decode 0 [0b11101010] = .ok (.nop, []) := by decide
theorem test_decode_sys : decode 1 [0b11111111, 0xEA] = .ok (.sys, [0xEA]) := by decide
theorem test_decode_sysStr : decode 2 [0b11111111, 0x00, 0x20, 0xEA] = .ok (.sysStr 0x00 0x20, [0xEA]) := by decide
theorem test_decode_brk : decode 0 [0b00000000] = .ok (.brk, []) := by decide
theorem test_decode_unknown : decode 0 [0x02] = .error (.unknownOpcode 0x02) := by decide
theorem test_decode_truncated : decode 0 [0x8D, 0x00] = .error (.truncated (some .sta)) := by decide

/-- The table's numbering: the first byte in bits 7..0. -/
theorem test_decodeTableWord :
    decodeTableWord 24 0x40008D = some (.sta 0x00 0x40) ∧ decodeTableWord 8 0xFF = some .sys ∧
      decodeTableWord 24 0x2000FF = some (.sysStr 0x00 0x20) ∧ decodeTableWord 8 0x02 = none := by decide

/-! ## States to test on -/

/-- A booted CORE at an instruction boundary: `code` at pc, `data` at architectural addresses. -/
def machine (pc : Byte) (code : List Byte) (data : List (Addr × Byte)) : State :=
  let s := { State.reset with running := true, listeners := [.cpu, .memory, .controller], pc := pc }
  ({ s.load data with mar := 0, mdr := 0 }).placeBytes pc code

/-- The outcome is a next state with the property. -/
def holds (o : Host.Outcome State Fault Refusal) (p : State → Bool) : Bool :=
  match o with
  | .next t => p t
  | .fault _ => false
  | .refused _ => false

/-! ## Memory (95 part 2.1, S3) -/

theorem test_cell_mapping :
    [0x0000, 0x0001, 0x0040, 0x00FF, 0x0100, 0x1234, 0x3412, 0x8000, 0xABAB, 0xFFFF].map cellIndex =
      [0x0000, 0x0100, 0x4000, 0xFF00, 0x0001, 0x3412, 0x1234, 0x0080, 0xABAB, 0xFFFF] := by decide

/-- S3: the cell written for 0x1234 is 0x3412, and cell 0x1234 is still zero. -/
theorem test_write_swaps :
    let t := State.reset.writeImmediate (.pair 0x12 0x34) 0xAB
    t.mem = [(0x3412, 0xAB)] ∧ t.mar = 0x1234 ∧ t.mdr = 0xAB ∧ t.rawRead 0x1234 = 0 ∧ t.rawRead 0x3412 = 0xAB := by decide

theorem test_write_zero_keeps_canonical :
    Memory.write [(1, 5), (2, 6)] 1 0 = [(2, 6)] ∧ Memory.write [(1, 5), (7, 6)] 3 9 = [(1, 5), (3, 9), (7, 6)] ∧
      Memory.wf [(1, 5), (1, 6)] = false ∧ Memory.wf [(1, 0)] = false ∧ Memory.wf [(65536, 1)] = false ∧
      Memory.wf [(65535, 1)] = true := by decide

/-! ## One step of each instruction (95 parts 1 and 2) -/

/-- L1. -/
theorem test_ldaImm_L1 :
    holds (step { machine 0x00 [0xA9, 0x00] [] with acc := 0x55 }) (fun t =>
      t.acc == 0x00 && t.pc == 0x02 && t.opp == 0x00 && t.mar == 0x0001 && t.mdr == 0x00) = true := by decide +kernel

/-- S2: after 6 ticks. -/
theorem test_ldaImm_S2 :
    holds (State.runTicks 6 (machine 0x00 [0xA9, 0x05] [])) (fun t =>
      t.acc == 0x05 && t.pc == 0x02 && t.step == .fetch && t.stepCounter == 0 && t.ir == 0xA9 && t.mar == 0x0001) = true := by
  decide +kernel

/-- L3. -/
theorem test_lda_L3 :
    holds (step (machine 0x10 [0xAD, 0x00, 0x40] [(0x0040, 0x7F)])) (fun t =>
      t.acc == 0x7F && t.pc == 0x13 && t.irx == 0x00 && t.iry == 0x40 && t.opp == 0x40 && t.mar == 0x0040 && t.mdr == 0x7F)
      = true := by decide +kernel

/-- L4: reads its own opcode byte. -/
theorem test_lda_L4 :
    holds (step (machine 0x00 [0xAD, 0x00, 0x00] [])) (fun t => t.acc == 0xAD && t.pc == 0x03 && t.mar == 0x0000) = true := by
  decide +kernel

/-- L6. -/
theorem test_sta_L6 :
    holds (step { machine 0x00 [0x8D, 0x12, 0x34] [] with acc := 0xAB }) (fun t =>
      t.byteAt 0x1234 == 0xAB && t.rawRead 0x3412 == 0xAB && t.rawRead 0x1234 == 0x00 && t.mar == 0x1234 && t.mdr == 0xAB
        && t.irx == 0x12 && t.iry == 0x34) = true := by decide +kernel

/-- L6, pulse 4: the first pass has latched the high byte and gone back to stage 2; nothing is stored yet. -/
theorem test_sta_L6_pulse4 :
    holds (State.runTicks 4 { machine 0x00 [0x8D, 0x12, 0x34] [] with acc := 0xAB }) (fun t =>
      t.irx == 0x12 && t.iry == 0x00 && t.step == .decodeOperand && t.stepCounter == 3 && t.byteAt 0x1234 == 0x00) = true := by
  decide +kernel

/-- L7. -/
theorem test_ldxImm_L7 :
    holds (step (machine 0x00 [0xA2, 0x02] [])) (fun t => t.xReg == 0x02 && t.pc == 0x02) = true := by decide +kernel

/-- L8. -/
theorem test_ldx_L8 :
    holds (step (machine 0x00 [0xAE, 0x01, 0x23] [(0x0123, 0x01)])) (fun t =>
      t.xReg == 0x01 && t.irx == 0x01 && t.iry == 0x23 && t.mar == 0x0123 && t.mdr == 0x01) = true := by decide +kernel

/-- L9. -/
theorem test_ldyImm_L9 :
    holds (step (machine 0x00 [0xA0, 0x2A] [])) (fun t => t.yReg == 0x2A && t.xReg == 0x00) = true := by decide +kernel

/-- L10. -/
theorem test_ldy_L10 :
    holds (step (machine 0x00 [0xAC, 0xFF, 0xFF] [(0xFFFF, 0x09)])) (fun t =>
      t.yReg == 0x09 && t.mar == 0xFFFF && t.mdr == 0x09) = true := by decide +kernel

/-- L11: the operand of an opcode at 0xFF is fetched from 0x0000. -/
theorem test_fetch_wraps_L11 :
    holds (step { machine 0xFF [0xA9] [] with acc := 0x55 }) (fun t => t.acc == 0x00 && t.pc == 0x01 && t.mar == 0x0000)
      = true := by decide +kernel

/-- A1: the largest legal sum. -/
theorem test_adc_A1 :
    holds (step { machine 0x00 [0x6D, 0x00, 0x30] [(0x0030, 0x80)] with acc := 0x7F }) (fun t =>
      t.acc == 0xFF && t.halted == none && t.step == .fetch && t.stepCounter == 0) = true := by decide +kernel

/-- S5. -/
theorem test_adc_S5 :
    holds (step { machine 0x00 [0x6D, 0x00, 0x30] [(0x0030, 0x20)] with acc := 0xF0 }) (fun t =>
      t.acc == 0x110 && t.halted == some .accOverflow && t.stopCalls == 1 && t.pc == 0x03 && t.opp == 0x30 && t.iry == 0x30
        && t.mar == 0x0030 && t.mdr == 0x20 && t.step == .execute && t.stepCounter == 4) = true := by decide +kernel

/-- A6: different gives 1. -/
theorem test_cpx_A6 :
    holds (step { machine 0x00 [0xEC, 0x00, 0x50] [(0x0050, 0x01)] with xReg := 0x03 }) (fun t =>
      t.zFlag == 1 && t.xReg == 0x03 && t.mdr == 0x01) = true := by decide +kernel

/-- A7: equal gives 0. -/
theorem test_cpx_A7 :
    holds (step { machine 0x00 [0xEC, 0x00, 0x50] [(0x0050, 0x03)] with xReg := 0x03, zFlag := 1 }) (fun t => t.zFlag == 0)
      = true := by decide +kernel

/-- A10. -/
theorem test_inc_A10 :
    holds (step (machine 0x00 [0xEE, 0x00, 0x50] [(0x0050, 0xFF)])) (fun t =>
      t.byteAt 0x0050 == 0x00 && t.mdr == 0x00 && t.mar == 0x0050 && t.halted == none) = true := by decide +kernel

/-- A11: increments its own low operand byte. -/
theorem test_inc_A11 :
    holds (step (machine 0x00 [0xEE, 0x00, 0x02] [])) (fun t => t.byteAt 0x0002 == 0x03 && t.iry == 0x02) = true := by
  decide +kernel

/-- B1 and B2. -/
theorem test_bne_B1_B2 :
    holds (step { machine 0xF8 [0xD0, 0x0A] [] with zFlag := 1 }) (fun t =>
        t.pc == 0x04 && t.ir == 0xD0 && t.opp == 0x0A && t.mar == 0x00F9 && t.mdr == 0x0A && t.zFlag == 1) = true ∧
      holds (step (machine 0xF8 [0xD0, 0x0A] [])) (fun t => t.pc == 0xFA && t.zFlag == 0) = true := by decide +kernel

/-- B4 and B6. -/
theorem test_bne_B4_B6 :
    holds (step { machine 0x20 [0xD0, 0xFE] [] with zFlag := 1 }) (fun t => t.pc == 0x20) = true ∧
      holds (step { machine 0xFE [0xD0, 0x04] [] with zFlag := 1 }) (fun t => t.pc == 0x04) = true := by decide +kernel

/-- Y1. -/
theorem test_nop_Y1 :
    holds (step (machine 0x07 [0xEA] [])) (fun t =>
      t.pc == 0x08 && t.ir == 0xEA && t.opp == 0xEA && t.mar == 0x0007 && t.mdr == 0xEA) = true := by decide +kernel

/-- Y2. -/
theorem test_sys_Y2 :
    holds (step { machine 0x00 [0xFF] [] with xReg := 0x01, yReg := 0x2A }) (fun t =>
      t.out == [.int 42] && t.pc == 0x01) = true := by decide +kernel

/-- Y8: refused, after three pulses that run. -/
theorem test_sys_Y8 :
    (match step (machine 0x00 [0xFF] []) with | .refused r => r == .sysSelector | _ => false) = true ∧
      holds (State.runTicks 3 (machine 0x00 [0xFF] [])) (fun t => t.step == .execute && t.stepCounter == 2 && t.pc == 0x01)
        = true := by decide +kernel

/-- Y3, and its pulse 6. -/
theorem test_sysStr_Y3 :
    let s := { machine 0x00 [0xFF, 0x00, 0x20] [(0x0020, 0x48), (0x0021, 0x69)] with xReg := 0x02 }
    holds (step s) (fun t =>
        t.out == [.char 0x48, .char 0x69] && t.pc == 0x03 && t.irx == 0x00 && t.iry == 0x22 && t.opp == 0x20
          && t.mar == 0x0022 && t.mdr == 0x00 && t.step == .fetch) = true ∧
      holds (State.runTicks 6 s) (fun t =>
        t.out == [.char 0x48] && t.step == .execute && t.stepCounter == 5 && t.iry == 0x21 && t.mar == 0x0020) = true := by
  decide +kernel

/-- Y6: the pointer wraps to 0x0000 and reads the instruction's own bytes. -/
theorem test_sysStr_Y6 :
    holds (step { machine 0x00 [0xFF, 0xFF, 0xFF] [(0xFFFF, 0x5A)] with xReg := 0x02 }) (fun t =>
      t.out == [.char 0x5A, .char 0xFF, .char 0xFF, .char 0xFF] && t.irx == 0x00 && t.iry == 0x03) = true := by decide +kernel

/-- Y7. -/
theorem test_brk_Y7 :
    holds (step (machine 0x0B [0x00] [])) (fun t =>
      t.halted == some .brk && t.stopCalls == 1 && t.pc == 0x0C && t.ir == 0x00 && t.step == .execute && t.stepCounter == 2
        && t.mar == 0x000B) = true := by decide +kernel

/-- S6, both vectors. -/
theorem test_unknown_S6 :
    holds (step (machine 0x00 [0x02] [])) (fun t =>
        t.halted == some .unknownOpcode && t.pc == 0x01 && t.ir == 0x02 && t.opp == 0x02 && t.step == .decodeOperand
          && t.stepCounter == 2 && t.mar == 0x0000 && t.mdr == 0x02) = true ∧
      holds (step (machine 0x30 [0xA1, 0x05] [])) (fun t => t.halted == some .unknownOpcode && t.pc == 0x31 && t.ir == 0xA1)
        = true := by decide +kernel

/-! ## The queue (95 part 2.6) and the Clock (2.7) -/

/-- The queue after enqueueing devices given as (reference, priority), head first. -/
def enqueued (l : List (Nat × Int)) : List Nat :=
  (l.foldl (fun q p => enqueue { device := p.1, priority := p.2 } q) []).map Pending.device

theorem test_queue_Q1_to_Q7 :
    enqueued [(0, 1), (1, 5)] = [1, 0] ∧ enqueued [(0, 5), (1, 1)] = [0, 1] ∧
      enqueued [(0, 3), (1, 3), (2, 3)] = [0, 1, 2] ∧
      enqueued [(0, 3), (1, 5), (2, 3), (3, 5), (4, 1), (5, 4)] = [1, 3, 5, 0, 2, 4] ∧
      enqueued [(0, -1), (1, 0)] = [1, 0] ∧ State.reset.getInterrupt = (none, State.reset) ∧
      enqueued [(0, 2), (0, 2)] = [0, 0] := by decide +kernel

/-- K1 to K3. -/
theorem test_clock_K1_to_K3 :
    State.reset.stop = State.reset ∧ (State.reset.start.stop).stop = State.reset.start.stop ∧
      State.reset.start.start = State.reset.start ∧ State.reset.start.stop.running = false := by decide +kernel

/-- A booted CORE with two devices of priorities 5 and 1, both pending, about to run NOP. -/
def machineWithDevices : State :=
  { machine 0x00 [0xEA] [] with
    devices := [0, 1], queue := [{ device := 0, priority := 5 }, { device := 1, priority := 1 }],
    deviceTable := [{ name := "K", irq := 1, priority := 5, input := [0x41], output := [0x42], debug := true },
                    { name := "T", irq := 2, priority := 1, input := [0x61, 0x62], output := [], debug := true }] }

/-- P6, its first NOP: K is taken, input logged before output, and T stays pending. -/
theorem test_service_P6 :
    holds (step machineWithDevices) (fun t =>
      t.log == [.drained 0 .input 0x41, .drained 0 .output 0x42] && t.queue == [{ device := 1, priority := 1 }]
        && t.deviceTable.map Device.input == [[], [0x61, 0x62]] && t.deviceTable.map Device.output == [[], []]
        && t.pc == 0x01 && t.acc == 0) = true := by decide +kernel

/-- While something is scheduled a step is one tick, taken after it. -/
theorem test_scheduled_step :
    holds (step { machineWithDevices with inputs := [[.pushInput 0 7, .acceptInterrupt 1]] }) (fun t =>
      t.step == .decodeOpcode && t.inputs == [] && t.queue.map Pending.device == [0, 1, 1]
        && t.deviceTable.map Device.input == [[0x41, 7], [0x61, 0x62]]) = true := by decide +kernel

/-- Boot: three listeners, one device, a program, the Clock running; the first tick fetches address 0. -/
theorem test_boot :
    holds (step { State.reset with inputs := [bootActions [("K", 1, 5)] [(0x0000, 0xA9), (0x0001, 0x05)]] }) (fun t =>
      t.opp == 0xA9 && t.pc == 0x01 && t.running && t.devices == [0] && t.mem == [(0x0000, 0xA9), (0x0100, 0x05)]) = true := by
  decide +kernel

/-! ## Witnesses: concrete states and operands that meet the hypotheses of each obligation, clause by clause -/

theorem next_of_holds {o : Host.Outcome State Fault Refusal} {p : State → Bool} (h : holds o p = true) :
    ∃ t, o = .next t ∧ p t = true := by
  cases o with
  | next t => exact ⟨t, rfl, h⟩
  | fault r => cases h
  | refused r => cases h

theorem inv_of {s : State}
    (h : (Memory.wf s.mem && s.controlOk && s.stopOk && queueSorted s.queue && s.referencesOk && s.outOk) = true) : s.Inv := by
  simp only [Bool.and_eq_true] at h
  obtain ⟨⟨⟨⟨⟨h1, h2⟩, h3⟩, h4⟩, h5⟩, h6⟩ := h
  exact ⟨h1, h2, h3, h4, h5, h6⟩

theorem atInstr_of {s : State} {i : Instr} (rest : List Byte)
    (h : (s.ready && decide (s.decodeNext = .ok (i, rest))) = true) : s.atInstr i := by
  simp only [Bool.and_eq_true, decide_eq_true_eq] at h
  exact ⟨h.1, rest, h.2⟩

/-- At an instruction boundary, between two stages, and with something scheduled. -/
theorem witness_InvariantKeptByStep :
    (∃ s t : State, s.Inv ∧ step s = .next t ∧ s.ready = true ∧ s.queue.length = 2) ∧
      (∃ s t : State, s.Inv ∧ step s = .next t ∧ s.step = .execute) ∧
      (∃ s t : State, s.Inv ∧ step s = .next t ∧ s.inputs ≠ []) := by
  refine ⟨?_, ?_, ?_⟩
  · obtain ⟨t, ht, _⟩ := next_of_holds (o := step machineWithDevices) (p := fun _ => true) (by decide +kernel)
    exact ⟨machineWithDevices, t, inv_of (by decide +kernel), ht, by decide +kernel, rfl⟩
  · let s : State := { machineWithDevices with ir := 0xEA, step := .execute, stepCounter := 2 }
    obtain ⟨t, ht, _⟩ := next_of_holds (o := step s) (p := fun _ => true) (by decide +kernel)
    exact ⟨s, t, inv_of (by decide +kernel), ht, rfl⟩
  · let s : State := { machineWithDevices with inputs := [[.acceptInterrupt 1, .addDevice 0]] }
    obtain ⟨t, ht, _⟩ := next_of_holds (o := step s) (p := fun _ => true) (by decide +kernel)
    exact ⟨s, t, inv_of (by decide +kernel), ht, by decide +kernel⟩

theorem refused_of {o : Host.Outcome State Fault Refusal}
    (h : (match o with | .refused _ => true | .fault _ => false | .next _ => false) = true) : ∃ r, o = .refused r := by
  cases o with
  | refused r => exact ⟨r, rfl⟩
  | fault r => cases h
  | next t => cases h

theorem witness_OnlySelectorIsRefused : ∃ (s : State) (r : Refusal), s.Inv ∧ step s = .refused r := by
  obtain ⟨r, hr⟩ := refused_of (o := step (machine 0x00 [0xFF] [])) (by decide +kernel)
  exact ⟨_, r, inv_of (by decide +kernel), hr⟩

/-- The largest accumulator in range. -/
theorem witness_WriteChangesOneCell : ∃ s : State, s.acc.toNat = 0xFF := ⟨{ State.reset with acc := 0xFF }, by decide⟩

theorem witness_WriteThenReadReturnsValue : ∃ (b0 b1 : Byte) (a : Addr), a ≠ pairAddr b0 b1 :=
  ⟨0x12, 0x34, 0x3412, by decide⟩

/-- The first index below the array, its first and last cell, and the first index above it. -/
theorem witness_DumpListsInclusiveRange :
    ((-1 : Int) + (0 : Nat) ≤ 65536) ∧ ((-1 : Int) + (1 : Nat) ≤ 65536) ∧ ((-1 : Int) + (65536 : Nat) ≤ 65536) ∧
      ((-1 : Int) + (65537 : Nat) ≤ 65536) := by decide

theorem witness_DecodeOfEncode :
    ∃ (i j k : Instr), i.wellFormed 1 = true ∧ j.wellFormed 2 = true ∧ k.wellFormed 0 = true :=
  ⟨.sys, .sysStr 0xFF 0x00, .ldaImm 0xFF, rfl, rfl, rfl⟩

theorem witness_EncodeOfDecode : decode 2 [0xFF, 0x00, 0x20, 0x07] = .ok (.sysStr 0x00 0x20, [0x07]) := by decide

theorem witness_LengthFromOpcodeAndSelector : decode 1 (0xFF :: [0x00]) = .ok (.sys, [0x00]) := by decide

theorem witness_UnknownBytesRejected :
    Opcode.ofByte 0x01 = none ∧ Opcode.ofByte 0xFE = none ∧ Opcode.ofByte 0xA1 = none := by decide

theorem witness_LoadConstantResult :
    (∃ s imm, State.atInstr s (.ldaImm imm)) ∧ (∃ s imm, State.atInstr s (.ldxImm imm)) ∧
      (∃ s imm, State.atInstr s (.ldyImm imm)) :=
  ⟨⟨machine 0x00 [0xA9, 0xFF] [], 0xFF, atInstr_of [0] (by decide +kernel)⟩,
   ⟨machine 0x00 [0xA2, 0x02] [], 0x02, atInstr_of [0] (by decide +kernel)⟩,
   ⟨machine 0xFF [0xA0, 0x2A] [], 0x2A, atInstr_of [0] (by decide +kernel)⟩⟩

theorem witness_LoadMemoryResult :
    (∃ s hi lo, State.atInstr s (.lda hi lo)) ∧ (∃ s hi lo, State.atInstr s (.ldx hi lo)) ∧
      (∃ s hi lo, State.atInstr s (.ldy hi lo)) :=
  ⟨⟨machine 0x10 [0xAD, 0x00, 0x40] [], 0x00, 0x40, atInstr_of [] (by decide +kernel)⟩,
   ⟨machine 0x00 [0xAE, 0x01, 0x23] [], 0x01, 0x23, atInstr_of [] (by decide +kernel)⟩,
   ⟨machine 0xFE [0xAC, 0xFF, 0xFF] [], 0xFF, 0xFF, atInstr_of [] (by decide +kernel)⟩⟩

theorem witness_StoreAccumulatorResult : ∃ s hi lo, State.atInstr s (.sta hi lo) ∧ ∃ a, a ≠ pairAddr hi lo :=
  ⟨machine 0x00 [0x8D, 0x12, 0x34] [], 0x12, 0x34, atInstr_of [] (by decide +kernel), 0x3412, by decide⟩

/-- Both sides of the bound: sums 0xFF and 0x100. -/
theorem witness_AddResult :
    (∃ s hi lo, s.acc.toNat ≤ 0xFF ∧ s.acc.toNat + (s.byteAt (pairAddr hi lo)).toNat = 0xFF ∧ State.atInstr s (.adc hi lo)) ∧
      (∃ s hi lo, s.acc.toNat ≤ 0xFF ∧ s.acc.toNat + (s.byteAt (pairAddr hi lo)).toNat = 0x100 ∧
        State.atInstr s (.adc hi lo)) :=
  ⟨⟨{ machine 0x00 [0x6D, 0x00, 0x30] [(0x0030, 0x80)] with acc := 0x7F }, 0x00, 0x30, by decide +kernel, by decide +kernel,
     atInstr_of [] (by decide +kernel)⟩,
   ⟨{ machine 0x00 [0x6D, 0x00, 0x30] [(0x0030, 0x80)] with acc := 0x80 }, 0x00, 0x30, by decide +kernel, by decide +kernel,
     atInstr_of [] (by decide +kernel)⟩⟩

theorem witness_CompareResult : ∃ s hi lo, State.atInstr s (.cpx hi lo) :=
  ⟨machine 0x00 [0xEC, 0x00, 0x50] [], 0x00, 0x50, atInstr_of [] (by decide +kernel)⟩

theorem witness_IncrementResult : ∃ s hi lo, State.atInstr s (.inc hi lo) ∧ ∃ a, a ≠ pairAddr hi lo :=
  ⟨machine 0x00 [0xEE, 0x00, 0x50] [(0x0050, 0xFF)], 0x00, 0x50, atInstr_of [] (by decide +kernel), 0x0051, by decide⟩

/-- Taken, and not taken. -/
theorem witness_BranchResult :
    (∃ s off, s.zFlag = 1 ∧ State.atInstr s (.bne off)) ∧ (∃ s off, s.zFlag = 0 ∧ State.atInstr s (.bne off)) :=
  ⟨⟨{ machine 0xF8 [0xD0, 0x0A] [] with zFlag := 1 }, 0x0A, rfl, atInstr_of [0] (by decide +kernel)⟩,
   ⟨machine 0xF8 [0xD0, 0x0A] [], 0x0A, by decide +kernel, atInstr_of [0] (by decide +kernel)⟩⟩

theorem witness_BranchReachesEveryTarget : ∃ s : State, s.zFlag = 1 := ⟨{ State.reset with zFlag := 1 }, rfl⟩

theorem witness_NoOperationResult : ∃ s, State.atInstr s .nop :=
  ⟨machine 0x07 [0xEA] [], atInstr_of [0, 0] (by decide +kernel)⟩

theorem witness_SysIntegerResult : ∃ s : State, s.xReg = 0x01 ∧ s.atInstr .sys :=
  ⟨{ machine 0x00 [0xFF] [] with xReg := 0x01 }, rfl, atInstr_of [0, 0] (by decide +kernel)⟩

/-- A state inside the string form: the byte at `irx:iry` is `b`, or that at `irx:opp` on the pass that latches iry. -/
def inString (counter : Nat) (b : Byte) : State :=
  { machine 0x00 [] [(0x0120, b)] with
    step := .execute, ir := 0xFF, xReg := 0x02, stepCounter := counter, opp := 0x20, irx := 0x01, iry := 0x20 }

/-- The first pass; the pass that latches iry, on a zero and on another byte; a later pass. -/
theorem witness_SysStringPulse :
    (∃ s : State, s.halted = none ∧ s.acc.toNat ≤ 0xFF ∧ s.step = .execute ∧ s.ir = 0xFF ∧ s.xReg = 0x02 ∧
        s.stepCounter = 3) ∧
      (∀ p ∈ [(4, (0 : Byte)), (4, 0x48), (5, 0), (5, 0x48)], ∃ s u : State, s.halted = none ∧ s.acc.toNat ≤ 0xFF ∧
        s.step = .execute ∧ s.ir = 0xFF ∧ s.xReg = 0x02 ∧ s.stepCounter ≠ 3 ∧
        u = (if s.stepCounter = 4 then { s with iry := s.opp } else s) ∧ u.byteAt (pairAddr u.irx u.iry) = p.2) := by
  refine ⟨⟨inString 3 0, by decide +kernel⟩, fun p hp => ⟨inString p.1 p.2, _, ?_, ?_, ?_, ?_, ?_, ?_, rfl, ?_⟩⟩ <;>
    (revert p; decide +kernel)

/-- The empty string, and one of two bytes. -/
theorem witness_SysStringResult :
    (∃ (s : State) (hi lo : Byte), s.xReg = 0x02 ∧ (∀ j < 0, s.byteAt (pairAddr hi lo + BitVec.ofNat 16 j) ≠ 0) ∧
        s.byteAt (pairAddr hi lo + BitVec.ofNat 16 0) = 0 ∧ s.atInstr (.sysStr hi lo)) ∧
      (∃ (s : State) (hi lo : Byte), s.xReg = 0x02 ∧ (∀ j < 2, s.byteAt (pairAddr hi lo + BitVec.ofNat 16 j) ≠ 0) ∧
        s.byteAt (pairAddr hi lo + BitVec.ofNat 16 2) = 0 ∧ s.atInstr (.sysStr hi lo)) :=
  ⟨⟨{ machine 0x00 [0xFF, 0x00, 0x20] [] with xReg := 0x02 }, 0x00, 0x20, rfl, by decide +kernel, by decide +kernel,
     atInstr_of [] (by decide +kernel)⟩,
   ⟨{ machine 0x00 [0xFF, 0x00, 0x20] [(0x0020, 0x48), (0x0021, 0x69)] with xReg := 0x02 }, 0x00, 0x20, rfl,
     by decide +kernel, by decide +kernel, atInstr_of [] (by decide +kernel)⟩⟩

/-- Memory with 1 in each of `n` cells from cell `a` on. -/
def allOnes (a n : Nat) : Memory :=
  match n with
  | 0 => []
  | n + 1 => (a, 1) :: allOnes (a + 1) n

theorem read_allOnes (n a i : Nat) (h : a ≤ i) (h2 : i < a + n) : Memory.read (allOnes a n) i = 1 := by
  induction n generalizing a with
  | zero => omega
  | succ n ih =>
    unfold allOnes Memory.read
    split
    · rfl
    · exact ih (a + 1) (by omega) (by omega)

theorem witness_UnterminatedStringNeverEnds :
    ∃ s : State, (∀ a, s.byteAt a ≠ 0) ∧ s.running = true ∧ s.listeners.count .cpu = 1 ∧ s.halted = none ∧
      s.acc.toNat ≤ 0xFF ∧ s.step = .execute ∧ s.ir = 0xFF ∧ s.xReg = 0x02 ∧ 5 ≤ s.stepCounter := by
  refine ⟨{ inString 5 0 with mem := allOnes 0 65536 }, fun a => ?_, by decide +kernel⟩
  show Memory.read (allOnes 0 65536) (cellIndex a).toNat ≠ 0
  rw [read_allOnes 65536 0 _ (by omega) (by have := (cellIndex a).isLt; omega)]
  decide

/-- The selectors next to the two that have a meaning. -/
theorem witness_SelectorOutsideRefused :
    ∀ x ∈ [(0 : Byte), 3, 0xFF], ∃ s : State, s.xReg = x ∧ s.xReg ≠ 0x01 ∧ s.xReg ≠ 0x02 ∧ s.halted = none ∧
      s.acc.toNat ≤ 0xFF ∧ s.step = .execute ∧ s.ir = 0xFF :=
  fun x hx => ⟨{ State.reset with xReg := x, step := .execute, ir := 0xFF }, by revert x; decide +kernel⟩

theorem witness_BreakStops : ∃ s, State.atInstr s .brk :=
  ⟨machine 0x0B [0x00] [], atInstr_of [0, 0] (by decide +kernel)⟩

theorem witness_UnknownOpcodeStops :
    ∃ (s : State) (b : Byte), s.ready = true ∧ s.inputs = [] ∧ s.byteAt (fetchAddr s.pc) = b ∧ Opcode.ofByte b = none :=
  ⟨machine 0x30 [0xA1, 0x05] [], 0xA1, by decide +kernel⟩

/-- For every instruction there is a state in which it answers a next state. -/
theorem witness_OnlyTheListedInstructionsWrite (i : Instr) : ∃ s t : State, exec i s = .next t := by
  cases i <;> first
    | exact ⟨State.reset, _, rfl⟩
    | exact ⟨{ State.reset with xReg := 1 }, _, rfl⟩
    | exact ⟨{ State.reset with xReg := 2 }, _, rfl⟩

/-- A stopped CPU, and each of the six stages of a running one. -/
theorem witness_PulseRunsOneStage :
    (∃ s : State, s.halted ≠ none) ∧
      (∀ st : Stage, ∃ s : State, s.halted = none ∧ s.acc.toNat ≤ 0xFF ∧ s.step = st) :=
  ⟨⟨{ State.reset with halted := some .brk }, by decide +kernel⟩,
   fun st => ⟨{ State.reset with step := st, acc := 0xFF }, rfl, Nat.le_refl 0xFF, rfl⟩⟩

theorem witness_FetchAndDecodeOpcodePulses :
    (∃ s : State, s.step = .fetch) ∧ (∃ s : State, s.step = .decodeOperand) :=
  ⟨⟨State.reset, rfl⟩, ⟨{ State.reset with step := .decodeOperand }, rfl⟩⟩

/-- Both passes of each of the seven opcodes. -/
theorem witness_AddressGatheredInTwoPasses :
    ∀ b ∈ ([0xAD, 0x8D, 0x6D, 0xAE, 0xAC, 0xEC, 0xEE] : List Byte),
      (∃ s : State, s.ir = b ∧ s.stepCounter = 3) ∧ (∃ s u : State, s.ir = b ∧ s.stepCounter ≠ 3 ∧ u = { s with iry := s.opp }) :=
  fun b _ => ⟨⟨{ State.reset with ir := b, stepCounter := 3 }, rfl, rfl⟩,
    ⟨{ State.reset with ir := b, stepCounter := 4 }, _, rfl, (by decide : (4 : Nat) ≠ 3), rfl⟩⟩

theorem witness_WritebackOnlyIncrements : (∃ s : State, s.ir ≠ 0xEE) ∧ (∃ s : State, s.ir = 0xEE) :=
  ⟨⟨State.reset, by decide⟩, ⟨{ State.reset with ir := 0xEE }, rfl⟩⟩

theorem witness_PulseCountsOfTheTable :
    (∃ (s : State) (i : Instr), s.atInstr i ∧ i.wellFormed s.xReg = true ∧ pulseCount i s = 10 ∧ ∃ a, s.byteAt a = 0) ∧
      (∃ (s : State) (i : Instr), s.atInstr i ∧ i.wellFormed s.xReg = true ∧ pulseCount i s = 4) :=
  ⟨⟨{ machine 0x00 [0xFF, 0x00, 0x20] [(0x0020, 0x48), (0x0021, 0x69)] with xReg := 0x02 }, .sysStr 0x00 0x20,
     atInstr_of [] (by decide +kernel), by decide +kernel, by decide +kernel, 0x0022, by decide +kernel⟩,
   ⟨machine 0x0B [0x00] [], .brk, atInstr_of [0, 0] (by decide +kernel), by decide +kernel, by decide +kernel⟩⟩

theorem witness_StepRunsDecodedInstruction :
    ∃ (s : State) (i : Instr), s.inputs = [] ∧ s.atInstr i ∧ i.wellFormed s.xReg = true :=
  ⟨machineWithDevices, .nop, by decide +kernel, atInstr_of [0, 0] (by decide +kernel), by decide +kernel⟩

theorem witness_StepIsARunOfTicks :
    (∃ s : State, s.inputs = [] ∧ s.ready = true) ∧ (∃ s : State, s.inputs = [] ∧ s.ready = false) :=
  ⟨⟨machineWithDevices, by decide +kernel⟩, ⟨State.reset, by decide +kernel⟩⟩

theorem witness_ScheduledActionsPrecedeOneTick :
    ∃ (s u : State) (slot : List Action) (rest : List (List Action)), s.inputs = slot :: rest ∧
      State.actAll slot { s with inputs := rest } = .next u ∧ slot.length = 2 :=
  ⟨{ machineWithDevices with inputs := [[.pushInput 0 7, .acceptInterrupt 1]] }, _, _, _, rfl, rfl, rfl⟩

theorem witness_PlacedWordRunsNext :
    decodeTableWord 24 0x40008D = some (.sta 0x00 0x40) ∧ decodeTableWord 8 0xFF = some .sys ∧
      decodeTableWord 24 0x2000FF = some (.sysStr 0x00 0x20) := by decide

theorem witness_StopIsFinal : ∃ s : State, s.halted ≠ none ∧ s.inputs = [] :=
  ⟨{ machineWithDevices with halted := some .brk }, by decide +kernel⟩

theorem witness_QueueStaysSorted : ∃ (s : State), queueSorted s.queue = true ∧ s.queue.length = 2 :=
  ⟨machineWithDevices, by decide +kernel⟩

theorem witness_EnqueueBehindEqualPriority :
    queueSorted [{ device := 0, priority := 5 }, { device := 1, priority := 3 }, { device := 2, priority := 1 }] = true := by
  decide

/-- Nothing pending, and a pending device whose entry exists. -/
theorem witness_ServiceTakesOneValueOfEachQueue :
    (∃ s : State, s.queue = []) ∧
      (∃ (s : State) (p : Pending) (rest : List Pending) (dev : Device), s.queue = p :: rest ∧
        s.deviceTable[p.device]? = some dev ∧ dev.input ≠ [] ∧ dev.output ≠ []) :=
  ⟨⟨State.reset, rfl⟩, ⟨machineWithDevices, _, _, _, rfl, rfl, by decide, by decide⟩⟩

/-- An instruction that reaches its end with two devices pending, and one that stops. -/
theorem witness_OneDevicePerInstruction :
    (∃ (i : Instr) (s t : State), exec i s = .next t ∧ t.step = .fetch ∧ s.queue.length = 2) ∧
      (∃ (i : Instr) (s t : State), exec i s = .next t ∧ t.step ≠ .fetch) :=
  ⟨⟨.nop, machineWithDevices, _, rfl, by decide +kernel, rfl⟩, ⟨.brk, machineWithDevices, _, rfl, by decide +kernel⟩⟩

theorem witness_DeviceOperationEffects :
    ∃ (s : State) (d : Nat) (dev : Device), s.deviceTable[d]? = some dev ∧ dev.input ≠ [] :=
  ⟨machineWithDevices, 1, _, rfl, by decide⟩

theorem witness_DeviceActionsCommuteWithPulses :
    ∃ (s : State) (a : Action), a.ofDevice = true ∧ s.step ≠ .interruptCheck ∧ s.queue ≠ [] :=
  ⟨machineWithDevices, .acceptInterrupt 1, by decide +kernel⟩

theorem witness_DevicesDoNotInfluencePrograms :
    ∃ s t : State, s.programView = t.programView ∧ s ≠ t :=
  ⟨machineWithDevices, { machineWithDevices with queue := [], devices := [] }, rfl, by decide +kernel⟩

theorem witness_DeviceActionsInvisible : Action.ofDevice (.createDevice "K" 1 (-1)) = true := rfl

theorem witness_ListenerNeedsPulse :
    Component.listener .controller = some .controller ∧ Component.listener .mmu = none ∧ Component.listener (.device 0) = none :=
  ⟨rfl, rfl, rfl⟩

theorem witness_StartAndStopAreGuarded :
    (∃ s : State, s.running = true) ∧ (∃ s : State, s.running = false ∧ s.inputs = []) :=
  ⟨⟨State.reset.start, rfl⟩, ⟨State.reset, rfl, rfl⟩⟩

/-- The CPU registered not at all, once, and twice. -/
theorem witness_TickPulsesEveryListenerOnce :
    ∀ n ∈ [0, 1, 2], ∃ s : State, s.running = true ∧ s.listeners.count .cpu = n :=
  fun n hn => ⟨{ State.reset with running := true, listeners := .memory :: List.replicate n .cpu }, by
    revert n; decide +kernel⟩

theorem witness_LoadOrderDoesNotMatter :
    ∃ p q : List (Addr × Byte), (p.map Prod.fst).Nodup ∧ p.Perm q ∧ p ≠ q ∧ (0x0002 : Addr) ∉ p.map Prod.fst :=
  ⟨[(0x0000, 0xA9), (0x0001, 0x05)], [(0x0001, 0x05), (0x0000, 0xA9)], by decide, List.Perm.swap _ _ _, by decide, by decide⟩

end Sys2Proof.Tests
end

/-! # The state's operations, said once: stage 3, the whole instruction, and what each writes -/

section

namespace Sys2Proof.Machine

/-! ## The last pass of stage 3, one equation per instruction -/

theorem State.passLdaImm_eq (s : State) :
    s.passLdaImm = { s with acc := byteToAcc s.opp, step := .writeback } := rfl

theorem State.passLda_eq (s : State) :
    s.passLda = { s with mar := s.latched, mdr := s.byteAt s.latched, acc := byteToAcc (s.byteAt s.latched),
                         step := .writeback } := by
  simp [State.passLda, State.absolute_eq]

theorem State.passSta_eq (s : State) :
    s.passSta = { s with mar := s.latched, mdr := s.accByte,
                         mem := Memory.write s.mem (cellIndex s.latched).toNat s.accByte, step := .writeback } := by
  simp [State.passSta, State.writeLatched_eq, State.setStep]

/-- An ADC whose sum is in range goes on to stage 4 (R200). -/
theorem State.passAdc_of_inRange {s : State} (h : adcOverflows s.acc (s.byteAt s.latched) = false) :
    s.passAdc = { s with mar := s.latched, mdr := s.byteAt s.latched, acc := adcSum s.acc (s.byteAt s.latched),
                         step := .writeback } := by
  simp [State.passAdc, State.absolute_eq, h, State.setStep]

/-- An ADC whose sum exceeds 0xFF stops the machine where it stands (R200, R150). -/
theorem State.passAdc_of_overflow {s : State} (h : adcOverflows s.acc (s.byteAt s.latched) = true) :
    s.passAdc = { s with mar := s.latched, mdr := s.byteAt s.latched, acc := adcSum s.acc (s.byteAt s.latched),
                         halted := some .accOverflow, stopCalls := s.stopCalls + 1 } := by
  simp [State.passAdc, State.absolute_eq, h, State.raiseStop]

/-- What ADC writes whether it stops or not. -/
theorem State.passAdc_frame (s : State) :
    s.passAdc = { s with mar := s.latched, mdr := s.byteAt s.latched, acc := adcSum s.acc (s.byteAt s.latched),
                         halted := s.passAdc.halted, stopCalls := s.passAdc.stopCalls, step := s.passAdc.step } := by
  cases ho : adcOverflows s.acc (s.byteAt s.latched) with
  | false => rw [State.passAdc_of_inRange ho]
  | true => rw [State.passAdc_of_overflow ho]

theorem State.passLdxImm_eq (s : State) : s.passLdxImm = { s with xReg := s.opp, step := .writeback } := rfl

theorem State.passLdx_eq (s : State) :
    s.passLdx = { s with mar := s.latched, mdr := s.byteAt s.latched, xReg := s.byteAt s.latched,
                         step := .writeback } := by
  simp [State.passLdx, State.absolute_eq]

theorem State.passLdyImm_eq (s : State) : s.passLdyImm = { s with yReg := s.opp, step := .writeback } := rfl

theorem State.passLdy_eq (s : State) :
    s.passLdy = { s with mar := s.latched, mdr := s.byteAt s.latched, yReg := s.byteAt s.latched,
                         step := .writeback } := by
  simp [State.passLdy, State.absolute_eq]

theorem State.passCpx_eq (s : State) :
    s.passCpx = { s with mar := s.latched, mdr := s.byteAt s.latched,
                         zFlag := compareFlag s.xReg (s.byteAt s.latched), step := .writeback } := by
  simp [State.passCpx, State.absolute_eq]

theorem State.passBne_eq (s : State) :
    s.passBne = { s with pc := if flagSet s.zFlag then s.branchTarget else s.pc, step := .writeback } := rfl

theorem State.passInc_eq (s : State) :
    s.passInc = { s with mar := s.latched, mdr := s.byteAt s.latched, step := .writeback } := by
  simp [State.passInc, State.absolute_eq, State.setStep]

theorem State.passNop_eq (s : State) : s.passNop = { s with step := .writeback } := rfl

theorem State.passSysInt_eq (s : State) :
    s.passSysInt = { s with out := s.out ++ [.int s.yReg], step := .writeback } := rfl

theorem State.passBrk_eq (s : State) :
    s.passBrk = { s with halted := some .brk, stopCalls := s.stopCalls + 1 } := rfl

/-! ## The string loop -/

/-- What holds of a state and is kept by every pass that does not come after the end of the loop holds after any number
of passes. -/
theorem State.stringRun_induction {P : State → Prop}
    (hpass : ∀ u, P u → u.step ≠ .writeback → P u.stringPass) :
    ∀ (n : Nat) (s : State), s.step ≠ .writeback → P s → P (s.stringRun n) := by
  intro n
  induction n with
  | zero => exact fun s _ hs => hs
  | succ n ih =>
    intro s hstep hs
    have hp : P s.stringPass := hpass s hs hstep
    unfold State.stringRun
    by_cases hw : s.stringPass.step = .writeback
    · simpa only [if_pos hw] using hp
    · simpa only [if_neg hw] using ih s.stringPass hw hp

/-- `s` with the fields that the string loop writes as `u` has them (R229). -/
def State.withLoopFields (s u : State) : State :=
  { s with mar := u.mar, mdr := u.mdr, out := u.out, irx := u.irx, iry := u.iry, step := u.step,
           stepCounter := u.stepCounter }

theorem State.stringPass_frame (s : State) : s.stringPass = s.withLoopFields s.stringPass := by
  by_cases hb : s.byteAt s.latched = 0
  · rw [State.stringPass_zero hb]; rfl
  · rw [State.stringPass_char hb]; rfl

theorem State.stringRun_frame (n : Nat) {s : State} (h : s.step ≠ .writeback) :
    s.stringRun n = s.withLoopFields (s.stringRun n) := by
  refine State.stringRun_induction (P := fun u => u = s.withLoopFields u) (fun u hu _ => ?_) n s h rfl
  calc u.stringPass = u.withLoopFields u.stringPass := u.stringPass_frame
    _ = (s.withLoopFields u).withLoopFields u.stringPass := congrArg (·.withLoopFields u.stringPass) hu
    _ = s.withLoopFields u.stringPass := rfl

/-! ## The whole instruction -/

/-- The state after the last pass of an instruction through stage 3, or after its stop. -/
def State.worked (s : State) (i : Instr) : State :=
  match i with
  | .ldaImm imm => (s.issueOperand 0xA9 imm).passLdaImm
  | .lda hi lo => (s.issueAddress 0xAD hi lo).passLda
  | .sta hi lo => (s.issueAddress 0x8D hi lo).passSta
  | .adc hi lo => (s.issueAddress 0x6D hi lo).passAdc
  | .ldxImm imm => (s.issueOperand 0xA2 imm).passLdxImm
  | .ldx hi lo => (s.issueAddress 0xAE hi lo).passLdx
  | .ldyImm imm => (s.issueOperand 0xA0 imm).passLdyImm
  | .ldy hi lo => (s.issueAddress 0xAC hi lo).passLdy
  | .cpx hi lo => (s.issueAddress 0xEC hi lo).passCpx
  | .bne off => (s.issueOperand 0xD0 off).passBne
  | .inc hi lo => (s.issueAddress 0xEE hi lo).passInc
  | .nop => (s.issueDirect 0xEA).passNop
  | .sys => (s.issueDirect 0xFF).passSysInt
  | .sysStr hi lo => (s.issueAddress 0xFF hi lo).stringRun Config.memorySize
  | .brk => (s.issueDirect 0x00).passBrk

/-- Stages 4 and 5 where stage 3 has led to them; a stop or an endless string stays where it is. -/
def State.finish (s : State) : State := if s.step = .writeback then s.retire else s

theorem State.finish_of_writeback {s : State} (h : s.step = .writeback) : s.finish = s.retire := if_pos h

theorem State.finish_of_not_writeback {s : State} (h : s.step ≠ .writeback) : s.finish = s := if_neg h

/-- A whole ADC is its work and then, unless it has stopped, stages 4 and 5. -/
theorem execAdc_eq (hi lo : Byte) (s : State) : execAdc hi lo s = .next (s.worked (.adc hi lo)).finish := by
  have habs : (s.issueAddress 0x6D hi lo).absolute.1 =
      (s.issueAddress 0x6D hi lo).byteAt (s.issueAddress 0x6D hi lo).latched := by rw [State.absolute_eq]
  simp only [execAdc, State.worked, habs]
  cases ho : adcOverflows (s.issueAddress 0x6D hi lo).acc
      ((s.issueAddress 0x6D hi lo).byteAt (s.issueAddress 0x6D hi lo).latched) with
  | false => rw [State.finish_of_writeback (by rw [State.passAdc_of_inRange ho])]; rfl
  | true => rw [State.finish_of_not_writeback (by rw [State.passAdc_of_overflow ho]; nofun)]; rfl

/-- What a whole instruction that goes on has done: its work, and then stages 4 and 5 unless it has not left stage 3. The
two forms of SYS go on only under the xReg that selects them (R232). -/
theorem exec_next {i : Instr} {s t : State} (h : exec i s = .next t) :
    t = (s.worked i).finish ∧ (i = .sys → s.xReg = 1) ∧ ((∃ hi lo, i = .sysStr hi lo) → s.xReg = 2) := by
  cases i with
  | adc hi lo =>
    have ht : t = _ := (Host.Outcome.next.inj ((execAdc_eq hi lo s).symm.trans h)).symm
    exact ⟨ht, nofun, nofun⟩
  | sys =>
    simp only [exec, execSys] at h
    split at h
    · next hx => cases h; exact ⟨rfl, fun _ => hx, nofun⟩
    · cases h
  | sysStr hi lo =>
    simp only [exec, execSysStr] at h
    split at h
    · next hx => cases h; exact ⟨rfl, nofun, fun _ => hx⟩
    · cases h
  | _ => cases h; exact ⟨rfl, nofun, nofun⟩

end Sys2Proof.Machine
end

/-! # What a whole instruction writes (R21, R25, R28) -/

section

namespace Sys2Proof.Machine

/-! ## Stages 4 and 5 -/

/-- Only INC writes memory in stage 4 (R148). -/
theorem State.writeback_mem {s : State} (h : s.ir ≠ 0xEE) : s.writeback.mem = s.mem := by
  rw [State.writeback, if_neg h, State.setStep_mem]

theorem State.incrementCell_eq (s : State) :
    s.incrementCell = { s with mar := s.latched, mdr := s.byteAt s.latched + 1,
                               mem := Memory.write s.mem (cellIndex s.latched).toNat (s.byteAt s.latched + 1) } := by
  simp [State.incrementCell, State.readLatched_eq, State.writeLatched_eq, State.getMdr, State.latched]

theorem State.writeback_frame (s : State) :
    s.writeback = { s with mar := s.writeback.mar, mdr := s.writeback.mdr, mem := s.writeback.mem,
                           step := .interruptCheck } := by
  unfold State.writeback
  split
  · rw [State.incrementCell_eq]; rfl
  · rfl

theorem State.interruptCheck_frame (s : State) :
    s.interruptCheck = { s with queue := s.queue.tail, deviceTable := s.serviceInterrupt.deviceTable,
                                log := s.serviceInterrupt.log, step := .fetch, stepCounter := 0 } := by
  rw [State.interruptCheck, State.serviceInterrupt_eq]

/-! ## The frame of an instruction -/

/-- `t` differs from `s` only where instruction `i` may write (R21, R25, R28). -/
structure OnlyWrites (i : Instr) (s t : State) : Prop where
  acc : i.opcode ∉ [.ldaImm, .lda, .adc] → t.acc = s.acc
  xReg : i.opcode ∉ [.ldxImm, .ldx] → t.xReg = s.xReg
  yReg : i.opcode ∉ [.ldyImm, .ldy] → t.yReg = s.yReg
  zFlag : i.opcode ≠ .cpx → t.zFlag = s.zFlag
  mem : i.opcode ∉ [.sta, .inc] → t.mem = s.mem
  out : i.opcode ≠ .sys → t.out = s.out
  latches : i.opcode.format ≠ .abs → i.opcode ≠ .sys → t.irx = s.irx ∧ t.iry = s.iry
  devices : t.devices = s.devices
  controllerDebug : t.controllerDebug = s.controllerDebug
  listeners : t.listeners = s.listeners
  running : t.running = s.running
  inputs : t.inputs = s.inputs

/-- The work of an instruction writes only what the instruction may write. ADC and the string loop have
more than one outcome, and their frames cover each; the other passes are equations. -/
theorem State.worked_onlyWrites (s : State) (i : Instr) : OnlyWrites i s (s.worked i) := by
  cases i with
  | adc hi lo =>
    rw [State.worked, State.passAdc_frame, State.issueAddress_eq]
    constructor <;> simp [Instr.opcode, Opcode.format]
  | sysStr hi lo =>
    rw [State.worked, State.stringRun_frame _ (by rw [State.issueAddress_eq]; nofun), State.withLoopFields,
      State.issueAddress_eq]
    constructor <;> simp [Instr.opcode]
  | _ =>
    constructor <;> simp [State.worked, Instr.opcode, Opcode.format, State.issueDirect_eq, State.issueOperand_eq,
      State.issueAddress_eq, State.passLdaImm_eq, State.passLda_eq, State.passSta_eq, State.passLdxImm_eq,
      State.passLdx_eq, State.passLdyImm_eq, State.passLdy_eq, State.passCpx_eq, State.passBne_eq, State.passInc_eq,
      State.passNop_eq, State.passSysInt_eq, State.passBrk_eq]

/-- The work of an instruction leaves its opcode byte in ir (R143). -/
theorem State.worked_ir (s : State) (i : Instr) : (s.worked i).ir = i.opcode.byte := by
  cases i with
  | adc hi lo => rw [State.worked, State.passAdc_frame]; rfl
  | sysStr hi lo => rw [State.worked, State.stringRun_frame _ (by rw [State.issueAddress_eq]; nofun)]; rfl
  | _ => rfl

theorem Opcode.byte_ne_inc {op : Opcode} (h : op ≠ .inc) : op.byte ≠ 0xEE := by
  revert h
  cases op <;> decide

/-- Stages 4 and 5 keep to what the instruction in ir may write. -/
theorem OnlyWrites.retire {i : Instr} {s u : State} (h : OnlyWrites i s u) (hir : u.ir = i.opcode.byte) :
    OnlyWrites i s u.retire := by
  have hmem : i.opcode ∉ [.sta, .inc] → u.writeback.mem = s.mem := fun hi => by
    have hne : i.opcode ≠ .inc := fun e => hi (by simp [e])
    rw [State.writeback_mem (hir ▸ Opcode.byte_ne_inc hne)]
    exact h.mem hi
  rw [State.retire, State.interruptCheck_frame, State.writeback_frame]
  exact ⟨h.acc, h.xReg, h.yReg, h.zFlag, hmem, h.out, h.latches, h.devices, h.controllerDebug, h.listeners, h.running,
    h.inputs⟩

theorem OnlyWrites.finish {i : Instr} {s u : State} (h : OnlyWrites i s u) (hir : u.ir = i.opcode.byte) :
    OnlyWrites i s u.finish := by
  unfold State.finish
  split
  · exact h.retire hir
  · exact h

theorem exec_onlyWrites {i : Instr} {s t : State} (h : exec i s = .next t) : OnlyWrites i s t := by
  obtain ⟨rfl, -, -⟩ := exec_next h
  exact (s.worked_onlyWrites i).finish (s.worked_ir i)

/-- Settles O32: an instruction is its work and then stages 4 and 5, and each of the two keeps to the frame. -/
theorem onlyTheListedInstructionsWrite : Obligations.OnlyTheListedInstructionsWrite := by
  intro i s t h
  obtain ⟨hacc, hx, hy, hz, hmem, hout, hlatch, hdev, hdebug, hlis, hrun, hin⟩ := exec_onlyWrites h
  exact ⟨hacc, hx, hy, hz, hmem, hout, hlatch, hdev, hdebug, hlis, hrun, hin⟩

end Sys2Proof.Machine
end

/-! # The queue, the references and what devices and the host do keep the invariant -/

section

namespace Sys2Proof.Machine

/-! ## The pending queue (R37, R259, R265) -/

theorem queueSorted_cons {p : Pending} {q : List Pending} :
    queueSorted (p :: q) = true ↔ (∀ r ∈ q, r.priority ≤ p.priority) ∧ queueSorted q = true := by
  simp [queueSorted]

theorem mem_enqueue {p x : Pending} {q : List Pending} : x ∈ enqueue p q ↔ x = p ∨ x ∈ q := by
  induction q with
  | nil => simp [enqueue]
  | cons y rest ih =>
    unfold enqueue
    split
    · simp
    · rw [List.mem_cons, ih, List.mem_cons]
      exact or_left_comm

/-- The new entry goes behind the head unless every entry is lower, and then the head is not lower than it. -/
theorem queueSorted_enqueue {p : Pending} {q : List Pending} (h : queueSorted q = true) :
    queueSorted (enqueue p q) = true := by
  induction q with
  | nil => rfl
  | cons x rest ih =>
    obtain ⟨hhead, hrest⟩ := queueSorted_cons.1 h
    unfold enqueue
    split
    · next hall =>
      have hlower : ∀ y ∈ x :: rest, y.priority < p.priority := by simpa using hall
      exact queueSorted_cons.2 ⟨fun r hr => (hlower r hr).le, h⟩
    · next hnot =>
      have hx : p.priority ≤ x.priority := by
        by_contra hlt
        refine hnot (List.all_eq_true.2 fun y hy => decide_eq_true ?_)
        rcases List.mem_cons.1 hy with rfl | hy
        · omega
        · have := hhead y hy
          omega
      refine queueSorted_cons.2 ⟨fun r hr => ?_, ih hrest⟩
      rcases mem_enqueue.1 hr with rfl | hr
      · exact hx
      · exact hhead r hr

/-! ## References to devices (R37, R38, R264) -/

/-- The priority of the device that a reference names, if it names one. -/
def State.priorityOf (s : State) (d : Nat) : Option Int := (s.deviceTable[d]?).map Device.priority

theorem State.priorityOf_of_get {s : State} {d : Nat} {dev : Device} (h : s.deviceTable[d]? = some dev) :
    s.priorityOf d = some dev.priority := by
  simp [State.priorityOf, h]

theorem State.priorityOf_isSome {s : State} {d : Nat} :
    (s.priorityOf d).isSome = true ↔ d < s.deviceTable.length := by
  simp [State.priorityOf]

theorem State.referencesOk_iff (s : State) :
    s.referencesOk = true ↔
      (∀ p ∈ s.queue, s.priorityOf p.device = some p.priority) ∧ ∀ d ∈ s.devices, (s.priorityOf d).isSome = true := by
  simp [State.referencesOk, State.priorityOf]

/-- References stay valid while no device goes away or changes its priority, and what is new in the queue and in the
registry is valid. -/
theorem State.referencesOk_mono {s t : State} (h : s.referencesOk = true)
    (htable : ∀ d n, s.priorityOf d = some n → t.priorityOf d = some n)
    (hqueue : ∀ p ∈ t.queue, p ∈ s.queue ∨ t.priorityOf p.device = some p.priority)
    (hdevices : ∀ d ∈ t.devices, d ∈ s.devices ∨ (t.priorityOf d).isSome = true) : t.referencesOk = true := by
  obtain ⟨hq, hd⟩ := s.referencesOk_iff.1 h
  refine t.referencesOk_iff.2 ⟨fun p hp => ?_, fun d hdt => ?_⟩
  · exact (hqueue p hp).elim (fun hs => htable _ _ (hq p hs)) id
  · refine (hdevices d hdt).elim (fun hs => ?_) id
    obtain ⟨n, hn⟩ := Option.isSome_iff_exists.1 (hd d hs)
    rw [htable d n hn, Option.isSome_some]

/-- Storing a device back with the priority it had changes no priority. -/
theorem State.priorityOf_setDevice {s : State} {d : Nat} {old dev : Device} (h : s.deviceTable[d]? = some old)
    (hp : dev.priority = old.priority) (k : Nat) : (s.setDevice d dev).priorityOf k = s.priorityOf k := by
  obtain ⟨hlt, hget⟩ := List.getElem?_eq_some_iff.1 h
  by_cases hk : d = k
  · subst hk
    simp [State.priorityOf, State.setDevice, hlt, hget, hp]
  · simp [State.priorityOf, State.setDevice, hk]

theorem State.referencesOk_setDevice {s : State} {d : Nat} {old dev : Device} (hs : s.referencesOk = true)
    (h : s.deviceTable[d]? = some old) (hp : dev.priority = old.priority) :
    (s.setDevice d dev).referencesOk = true :=
  State.referencesOk_mono hs (fun k n hk => by rw [State.priorityOf_setDevice h hp k, hk]) (fun _ => .inl) (fun _ => .inl)

@[simp] theorem Device.setPort_priority (dev : Device) (p : Port) (l : List Nat) :
    (dev.setPort p l).priority = dev.priority := by
  cases p <;> rfl

/-! ## What devices do (R257, R258, R263, R270) -/

theorem State.Inv.setDevice {s : State} (hs : s.Inv) {d : Nat} {old dev : Device} (h : s.deviceTable[d]? = some old)
    (hp : dev.priority = old.priority) : (s.setDevice d dev).Inv :=
  ⟨hs.memory, hs.control, hs.stops, hs.sorted, State.referencesOk_setDevice hs.references h hp, hs.output⟩

theorem State.Inv.push {s : State} (hs : s.Inv) (d : Nat) (p : Port) (v : Nat) : (s.push d p v).Inv := by
  unfold State.push
  split
  · exact hs
  · next dev hd => exact hs.setDevice hd (dev.setPort_priority p _)

theorem State.Inv.drain {s : State} (hs : s.Inv) (d : Nat) (p : Port) : (s.drain d p).Inv := by
  unfold State.drain
  split
  · exact hs
  · next dev hd =>
    split
    · exact hs
    · next v rest _ =>
      have hset : (s.setDevice d (dev.setPort p rest)).Inv := hs.setDevice hd (dev.setPort_priority p rest)
      exact ⟨hset.memory, hset.control, hset.stops, hset.sorted, hset.references, hset.output⟩

theorem State.Inv.acceptInterrupt {s : State} (hs : s.Inv) (d : Nat) : (s.acceptInterrupt d).Inv := by
  unfold State.acceptInterrupt
  split
  · exact hs
  · next dev hd =>
    refine ⟨hs.memory, hs.control, hs.stops, queueSorted_enqueue hs.sorted, ?_, hs.output⟩
    refine State.referencesOk_mono hs.references (fun _ _ => id) (fun p hp => ?_) (fun _ => .inl)
    rcases mem_enqueue.1 hp with rfl | hp
    · exact .inr (State.priorityOf_of_get hd)
    · exact .inl hp

/-- Interrupt service takes the head of the queue and then drains the two queues of its device. -/
theorem State.Inv.serviceInterrupt {s : State} (hs : s.Inv) : s.serviceInterrupt.Inv := by
  cases hq : s.queue with
  | nil => simpa only [State.serviceInterrupt, State.getInterrupt, hq] using hs
  | cons p rest =>
    have hdequeued : State.Inv { s with queue := rest } := by
      refine ⟨hs.memory, hs.control, hs.stops, (queueSorted_cons.1 (hq ▸ hs.sorted)).2, ?_, hs.output⟩
      exact State.referencesOk_mono hs.references (fun _ _ => id) (fun r hr => .inl (hq ▸ List.mem_cons_of_mem p hr))
        (fun _ => .inl)
    simpa only [State.serviceInterrupt, State.getInterrupt, hq] using
      (hdequeued.drain p.device .input).drain p.device .output

/-! ## What the host does (R131 to R133, R256, R263, R300 to R310) -/

theorem State.Inv.createDevice {s : State} (hs : s.Inv) (name : String) (irq : Nat) (priority : Int) :
    (s.createDevice name irq priority).Inv := by
  refine ⟨hs.memory, hs.control, hs.stops, hs.sorted, ?_, hs.output⟩
  refine State.referencesOk_mono hs.references (fun d n hd => ?_) (fun _ => .inl) (fun _ => .inl)
  have hlt : d < s.deviceTable.length := State.priorityOf_isSome.1 (by rw [hd, Option.isSome_some])
  simpa only [State.priorityOf, State.createDevice, List.getElem?_append_left hlt] using hd

theorem State.Inv.addDevice {s : State} (hs : s.Inv) (d : Nat) : (s.addDevice d).Inv := by
  unfold State.addDevice
  split
  · exact hs
  · next dev hd =>
    have hset : (s.setDevice d { dev with debug := s.controllerDebug }).Inv := hs.setDevice hd rfl
    have hnamed : ((s.setDevice d { dev with debug := s.controllerDebug }).priorityOf d).isSome = true :=
      State.priorityOf_isSome.2 (by simpa [State.setDevice] using (List.getElem?_eq_some_iff.1 hd).1)
    refine ⟨hset.memory, hset.control, hset.stops, hset.sorted, ?_, hset.output⟩
    refine State.referencesOk_mono hset.references (fun _ _ => id) (fun _ => .inl) (fun k hk => ?_)
    rcases List.mem_append.1 hk with hk | hk
    · exact .inl hk
    · obtain rfl := List.mem_singleton.1 hk
      exact .inr hnamed

theorem State.Inv.addListener {s : State} (hs : s.Inv) (c : Component) : (s.addListener c).Inv := by
  unfold State.addListener
  split <;> exact ⟨hs.memory, hs.control, hs.stops, hs.sorted, hs.references, hs.output⟩

theorem State.Inv.writeImmediate {s : State} (hs : s.Inv) (f : AddrForm) (v : Byte) : (s.writeImmediate f v).Inv := by
  rw [State.writeImmediate_eq]
  exact ⟨Memory.wf_write hs.memory (Memory.addr_lt _) v, hs.control, hs.stops, hs.sorted, hs.references, hs.output⟩

theorem State.Inv.rawWrite {s : State} (hs : s.Inv) (i : Addr) (v : Byte) : (s.rawWrite i v).Inv :=
  ⟨Memory.wf_write hs.memory (Memory.addr_lt i) v, hs.control, hs.stops, hs.sorted, hs.references, hs.output⟩

theorem State.Inv.memoryReset {s : State} (hs : s.Inv) : s.memoryReset.Inv :=
  ⟨Memory.wf_nil, hs.control, hs.stops, hs.sorted, hs.references, hs.output⟩

/-- Whether the Clock runs is no part of the invariant. -/
theorem State.Inv.setRunning {s : State} (hs : s.Inv) (b : Bool) : State.Inv { s with running := b } :=
  ⟨hs.memory, hs.control, hs.stops, hs.sorted, hs.references, hs.output⟩

/-- What is scheduled is no part of the invariant. -/
theorem State.Inv.setInputs {s : State} (hs : s.Inv) (l : List (List Action)) : State.Inv { s with inputs := l } :=
  ⟨hs.memory, hs.control, hs.stops, hs.sorted, hs.references, hs.output⟩

theorem State.reset_inv : State.reset.Inv := ⟨rfl, rfl, rfl, rfl, rfl, rfl⟩

end Sys2Proof.Machine
end

/-! # Every stage and every instruction keeps the invariant -/

section

namespace Sys2Proof.Machine

/-! ## The invariant without the control state -/

/-- Nothing has stopped, and everything of the invariant but the pair of `step` and `stepCounter` holds. No register but acc
and no part of the control state has a say in it, so a pulse that writes only those keeps it as it stands. -/
def State.Going (s : State) : Prop :=
  s.halted = none ∧ s.acc.toNat ≤ 0xFF ∧ s.stopCalls = 0 ∧ Memory.wf s.mem = true ∧ queueSorted s.queue = true ∧
    s.referencesOk = true ∧ s.outOk = true

theorem State.Inv.going {s : State} (h : s.Inv) (hrun : s.halted = none) : s.Going := by
  have hstops : s.acc.toNat ≤ 0xFF ∧ s.stopCalls = 0 := by simpa [State.stopOk, hrun] using h.stops
  exact ⟨hrun, hstops.1, hstops.2, h.memory, h.sorted, h.references, h.output⟩

theorem State.Going.inv {s : State} (h : s.Going) (hcontrol : s.controlOk = true) : s.Inv := by
  obtain ⟨hrun, hacc, hcalls, hmem, hsorted, hrefs, hout⟩ := h
  exact ⟨hmem, hcontrol, by simp [State.stopOk, hrun, hacc, hcalls], hsorted, hrefs, hout⟩

theorem State.Going.setAcc {s : State} (h : s.Going) {a : AccWord} (ha : a.toNat ≤ 0xFF) :
    State.Going { s with acc := a } := by
  obtain ⟨hrun, -, hcalls, hmem, hsorted, hrefs, hout⟩ := h
  exact ⟨hrun, ha, hcalls, hmem, hsorted, hrefs, hout⟩

theorem State.Going.writeMem {s : State} (h : s.Going) (a : Addr) (v : Byte) :
    State.Going { s with mem := Memory.write s.mem (cellIndex a).toNat v } := by
  obtain ⟨hrun, hacc, hcalls, hmem, hsorted, hrefs, hout⟩ := h
  exact ⟨hrun, hacc, hcalls, Memory.wf_write hmem (Memory.addr_lt _) v, hsorted, hrefs, hout⟩

theorem State.Going.emit {s : State} (h : s.Going) {item : OutItem} (hi : item ≠ .char 0) :
    State.Going { s with out := s.out ++ [item] } := by
  obtain ⟨hrun, hacc, hcalls, hmem, hsorted, hrefs, hout⟩ := h
  refine ⟨hrun, hacc, hcalls, hmem, hsorted, hrefs, ?_⟩
  rw [State.outOk, List.all_append, Bool.and_eq_true]
  exact ⟨hout, by simpa using hi⟩

/-! ## Facts about acc and the opcode byte -/

theorem byteToAcc_toNat (b : Byte) : (byteToAcc b).toNat = b.toNat := by
  have := b.isLt
  simp only [byteToAcc, BitVec.toNat_setWidth]
  omega

theorem byteToAcc_le (b : Byte) : (byteToAcc b).toNat ≤ 0xFF := by
  have := b.isLt
  rw [byteToAcc_toNat]
  omega

/-- The nine bits of acc hold the sum of two bytes exactly (R22, R200). -/
theorem adcSum_toNat {acc : AccWord} (h : acc.toNat ≤ 0xFF) (m : Byte) :
    (adcSum acc m).toNat = acc.toNat + m.toNat := by
  have := m.isLt
  rw [adcSum, BitVec.toNat_add, byteToAcc_toNat]
  omega

theorem Opcode.byte_of_ofByte {b : Byte} {op : Opcode} (h : Opcode.ofByte b = some op) : b = op.byte := by
  have := List.find?_some h
  exact (beq_iff_eq.1 this).symm

/-! ## The passes that lead from stage 3 to stage 4 -/

/-- `t` is `s` after the last pass of stage 3. -/
structure State.Advances (s t : State) : Prop where
  going : t.Going
  step : t.step = .writeback
  ir : t.ir = s.ir
  stepCounter : t.stepCounter = s.stepCounter

theorem State.Going.advances_passLdaImm {s : State} (h : s.Going) : s.Advances s.passLdaImm :=
  ⟨h.setAcc (byteToAcc_le _), rfl, rfl, rfl⟩

theorem State.Going.advances_passLda {s : State} (h : s.Going) : s.Advances s.passLda := by
  rw [State.passLda_eq]
  exact ⟨h.setAcc (byteToAcc_le _), rfl, rfl, rfl⟩

theorem State.Going.advances_passSta {s : State} (h : s.Going) : s.Advances s.passSta := by
  rw [State.passSta_eq]
  exact ⟨h.writeMem s.latched s.accByte, rfl, rfl, rfl⟩

theorem State.Going.advances_passLdxImm {s : State} (h : s.Going) : s.Advances s.passLdxImm := ⟨h, rfl, rfl, rfl⟩

theorem State.Going.advances_passLdx {s : State} (h : s.Going) : s.Advances s.passLdx := by
  rw [State.passLdx_eq]
  exact ⟨h, rfl, rfl, rfl⟩

theorem State.Going.advances_passLdyImm {s : State} (h : s.Going) : s.Advances s.passLdyImm := ⟨h, rfl, rfl, rfl⟩

theorem State.Going.advances_passLdy {s : State} (h : s.Going) : s.Advances s.passLdy := by
  rw [State.passLdy_eq]
  exact ⟨h, rfl, rfl, rfl⟩

theorem State.Going.advances_passCpx {s : State} (h : s.Going) : s.Advances s.passCpx := by
  rw [State.passCpx_eq]
  exact ⟨h, rfl, rfl, rfl⟩

theorem State.Going.advances_passBne {s : State} (h : s.Going) : s.Advances s.passBne := ⟨h, rfl, rfl, rfl⟩

theorem State.Going.advances_passInc {s : State} (h : s.Going) : s.Advances s.passInc := by
  rw [State.passInc_eq]
  exact ⟨h, rfl, rfl, rfl⟩

theorem State.Going.advances_passNop {s : State} (h : s.Going) : s.Advances s.passNop := ⟨h, rfl, rfl, rfl⟩

theorem State.Going.advances_passSysInt {s : State} (h : s.Going) : s.Advances s.passSysInt :=
  ⟨h.emit nofun, rfl, rfl, rfl⟩

/-! ## Stages 4 and 5 (R148, R149) -/

theorem State.Going.writeback {s : State} (h : s.Going) : s.writeback.Going := by
  unfold State.writeback
  split
  · rw [State.incrementCell_eq]
    exact h.writeMem s.latched (s.byteAt s.latched + 1)
  · exact h

/-- Stage 5 ends in a state with the invariant, whatever `step` and `stepCounter` were. -/
theorem State.Going.inv_interruptCheck {s : State} (h : s.Going) : s.interruptCheck.Inv := by
  rw [State.interruptCheck_eq]
  exact (State.Going.inv (s := { s with step := .fetch, stepCounter := 0 }) h rfl).serviceInterrupt

theorem State.Going.inv_retire {s : State} (h : s.Going) : s.retire.Inv := h.writeback.inv_interruptCheck

/-! ## The stops (R150, R250, R251) -/

theorem State.Going.inv_passBrk {s : State} (h : s.Going) (hs : s.step = .execute) (hc : s.stepCounter = 2)
    (hir : s.ir = 0x00) : s.passBrk.Inv := by
  obtain ⟨-, hacc, hcalls, hmem, hsorted, hrefs, hout⟩ := h
  rw [State.passBrk_eq]
  refine ⟨hmem, ?_, ?_, hsorted, hrefs, hout⟩
  · simp only [State.controlOk, State.executeCounter, hs, hc, hir]
    rfl
  · simp [State.stopOk, hacc, hcalls, hs, hc, hir]

theorem State.Going.inv_stopUnknown {s : State} (h : s.Going) (hs : s.step = .decodeOperand) (hc : s.stepCounter = 2)
    (hir : Opcode.ofByte s.ir = none) : (s.raiseStop .unknownOpcode).Inv := by
  obtain ⟨-, hacc, hcalls, hmem, hsorted, hrefs, hout⟩ := h
  refine ⟨hmem, ?_, ?_, hsorted, hrefs, hout⟩
  · simp [State.controlOk, hs, hc]
  · simp [State.raiseStop, State.stopOk, hacc, hcalls, hs, hc, hir]

/-- The second pass of ADC goes on to stage 4 with acc in range, or stops with the unwrapped sum in acc (R200). -/
theorem State.Going.inv_passAdc {s : State} (h : s.Going) (hs : s.step = .execute) (hc : s.stepCounter = 4)
    (hir : s.ir = 0x6D) : s.passAdc.Inv := by
  obtain ⟨-, hacc, hcalls, hmem, hsorted, hrefs, hout⟩ := id h
  have hsum := adcSum_toNat hacc (s.byteAt s.latched)
  have hm := (s.byteAt s.latched).isLt
  cases ho : adcOverflows s.acc (s.byteAt s.latched) with
  | false =>
    rw [State.passAdc_of_inRange ho]
    have hle : s.acc.toNat + (s.byteAt s.latched).toNat ≤ 0xFF := by simpa [adcOverflows] using ho
    refine State.Going.inv (h.setAcc (hsum.trans_le hle)) ?_
    simp only [State.controlOk, State.finishCounter, hc, hir]
    rfl
  | true =>
    rw [State.passAdc_of_overflow ho]
    have hlt : 0xFF < s.acc.toNat + (s.byteAt s.latched).toNat := by simpa [adcOverflows] using ho
    refine ⟨hmem, ?_, ?_, hsorted, hrefs, hout⟩
    · simp only [State.controlOk, State.executeCounter, hs, hc, hir]
      rfl
    · have hmax : s.acc.toNat + (s.byteAt s.latched).toNat ≤ 0x1FE := by omega
      simp [State.stopOk, hsum, hlt, hmax, hcalls, hs, hc, hir]

/-! ## The string loop (R229, R230) -/

/-- The machine is in the string loop of SYS, its latches set. -/
structure State.InString (s : State) : Prop where
  going : s.Going
  step : s.step = .execute
  ir : s.ir = 0xFF
  xReg : s.xReg = 2
  stepCounter : 4 ≤ s.stepCounter

theorem State.InString.inv {s : State} (h : s.InString) : s.Inv := by
  refine h.going.inv ?_
  have hop : Opcode.ofByte s.ir = some .sys := by rw [h.ir]; rfl
  have hc : 3 ≤ s.stepCounter := by have := h.stepCounter; omega
  simp [State.controlOk, h.step, State.executeCounter, hop, Opcode.format, h.xReg, hc]

/-- A pass of the loop emits a byte that is not zero and stays in the loop, or ends it at a zero byte. -/
theorem State.InString.inv_stringPass {s : State} (h : s.InString) :
    s.stringPass.Inv ∧ (s.stringPass.step ≠ .writeback → s.stringPass.InString) := by
  by_cases hb : s.byteAt s.latched = 0
  · rw [State.stringPass_zero hb]
    refine ⟨State.Going.inv h.going ?_, fun hne => absurd rfl hne⟩
    have hop : Opcode.ofByte s.ir = some .sys := by rw [h.ir]; rfl
    simp [State.controlOk, State.finishCounter, hop, Opcode.format, h.xReg, h.stepCounter]
  · have hnext : s.stringPass.InString := by
      rw [State.stringPass_char hb]
      exact ⟨h.going.emit (fun e => hb (OutItem.char.inj e)), h.step, h.ir, h.xReg, Nat.le_succ_of_le h.stepCounter⟩
    exact ⟨hnext.inv, fun _ => hnext⟩

theorem State.InString.inv_stringRun {s : State} (h : s.InString) (n : Nat) : (s.stringRun n).Inv :=
  (State.stringRun_induction (P := fun u => u.Inv ∧ (u.step ≠ .writeback → u.InString))
    (fun _ hu hne => (hu.2 hne).inv_stringPass) n s (by rw [h.step]; nofun) ⟨h.inv, fun _ => h⟩).1

/-! ## Whole instructions -/

/-- Only a stop in stage 2 or 3 is ever recorded (R150). -/
theorem State.Inv.running_of_step {s : State} (h : s.Inv) (h2 : s.step ≠ .decodeOperand) (h3 : s.step ≠ .execute) :
    s.halted = none := by
  have hstops := h.stops
  unfold State.stopOk at hstops
  split at hstops
  · assumption
  all_goals simp_all

theorem State.Inv.going_of_step {s : State} (h : s.Inv) (h2 : s.step ≠ .decodeOperand) (h3 : s.step ≠ .execute) :
    s.Going :=
  h.going (h.running_of_step h2 h3)

theorem State.Inv.finish {s : State} (h : s.Inv) : s.finish.Inv := by
  by_cases hw : s.step = .writeback
  · rw [State.finish_of_writeback hw]
    exact (h.going_of_step (by simp [hw]) (by simp [hw])).inv_retire
  · rwa [State.finish_of_not_writeback hw]

theorem State.Advances.inv_finish {s t : State} (h : s.Advances t) : t.finish.Inv := by
  rw [State.finish_of_writeback h.step]
  exact h.going.inv_retire

theorem State.Going.issueAddress {s : State} (h : s.Going) (op hi lo : Byte) : (s.issueAddress op hi lo).Going := h

theorem State.Going.issueOperand {s : State} (h : s.Going) (op b : Byte) : (s.issueOperand op b).Going := h

theorem State.Going.issueDirect {s : State} (h : s.Going) (op : Byte) : (s.issueDirect op).Going := h

/-- A whole instruction from a boundary ends in a state with the invariant. -/
theorem State.Going.inv_finish_worked {s : State} (h : s.Going) (hc : s.stepCounter = 0) (i : Instr)
    (hx : (∃ hi lo, i = .sysStr hi lo) → s.xReg = 2) : (s.worked i).finish.Inv := by
  cases i with
  | ldaImm imm => exact (h.issueOperand 0xA9 imm).advances_passLdaImm.inv_finish
  | lda hi lo => exact (h.issueAddress 0xAD hi lo).advances_passLda.inv_finish
  | sta hi lo => exact (h.issueAddress 0x8D hi lo).advances_passSta.inv_finish
  | adc hi lo =>
    exact ((h.issueAddress 0x6D hi lo).inv_passAdc rfl (by rw [State.issueAddress_eq]; simp [hc]) rfl).finish
  | ldxImm imm => exact (h.issueOperand 0xA2 imm).advances_passLdxImm.inv_finish
  | ldx hi lo => exact (h.issueAddress 0xAE hi lo).advances_passLdx.inv_finish
  | ldyImm imm => exact (h.issueOperand 0xA0 imm).advances_passLdyImm.inv_finish
  | ldy hi lo => exact (h.issueAddress 0xAC hi lo).advances_passLdy.inv_finish
  | cpx hi lo => exact (h.issueAddress 0xEC hi lo).advances_passCpx.inv_finish
  | bne off => exact (h.issueOperand 0xD0 off).advances_passBne.inv_finish
  | inc hi lo => exact (h.issueAddress 0xEE hi lo).advances_passInc.inv_finish
  | nop => exact (h.issueDirect 0xEA).advances_passNop.inv_finish
  | sys => exact (h.issueDirect 0xFF).advances_passSysInt.inv_finish
  | sysStr hi lo =>
    have hloop : (s.issueAddress 0xFF hi lo).InString :=
      ⟨h.issueAddress 0xFF hi lo, rfl, rfl, hx ⟨hi, lo, rfl⟩, by rw [State.issueAddress_eq]; simp⟩
    exact (hloop.inv_stringRun Config.memorySize).finish
  | brk => exact ((h.issueDirect 0x00).inv_passBrk rfl (by rw [State.issueDirect_eq]; simp [hc]) rfl).finish

theorem exec_inv {i : Instr} {s t : State} (h : s.Inv) (hrun : s.halted = none) (hc : s.stepCounter = 0)
    (ht : exec i s = .next t) : t.Inv := by
  obtain ⟨rfl, -, hx⟩ := exec_next ht
  exact (h.going hrun).inv_finish_worked hc i hx

end Sys2Proof.Machine
end

/-! # Every pulse, every action from outside and every step keep the invariant -/

section

namespace Sys2Proof.Machine

/-! ## The control state, stage by stage (R30, R144, R147, R151) -/

theorem State.controlOk_execute {s : State} (hs : s.step = .execute) : s.controlOk = s.executeCounter := by
  simp [State.controlOk, hs]

theorem State.controlOk_writeback {s : State} (hs : s.step = .writeback) : s.controlOk = s.finishCounter := by
  simp [State.controlOk, hs]

/-- Outside SYS the count after stage 3 depends on ir and the count alone. -/
theorem State.finishCounter_congr {s t : State} (hir : t.ir = s.ir) (hc : t.stepCounter = s.stepCounter)
    (hx : Opcode.ofByte s.ir = some .sys → t.xReg = s.xReg) : t.finishCounter = s.finishCounter := by
  unfold State.finishCounter
  rw [hir, hc]
  cases hop : Opcode.ofByte s.ir with
  | none => rfl
  | some op =>
    cases op with
    | sys => simp [Opcode.format, hx hop]
    | _ => rfl

/-- A state that a pass has led to stage 4 has the invariant when its count was that of the last pass. -/
theorem State.Advances.inv {s t : State} (ht : s.Advances t) (hf : s.finishCounter = true)
    (hx : Opcode.ofByte s.ir = some .sys → t.xReg = s.xReg) : t.Inv := by
  refine ht.going.inv ?_
  rw [State.controlOk_writeback ht.step, State.finishCounter_congr ht.ir ht.stepCounter hx, hf]

/-- After one operand byte stage 3 has one pass, and it is the last. -/
theorem State.Advances.inv_of_operand {s t : State} {op : Opcode} (ht : s.Advances t) (hop : Opcode.ofByte s.ir = some op)
    (hf : op.format = .imm ∨ op.format = .rel) (hc : s.executeCounter = true) : t.Inv := by
  refine ht.inv ?_ (fun e => ?_)
  · rcases hf with hf | hf <;> simpa [State.executeCounter, State.finishCounter, hop, hf] using hc
  · obtain rfl : op = .sys := Option.some.inj (hop.symm.trans e)
    simp [Opcode.format] at hf

/-- The first pass of stage 3 over an address goes back to stage 2 for the low byte (R147). -/
theorem State.Going.inv_latchHigh {s : State} (h : s.Going) (hc : s.stepCounter = 3) (ha : s.takesAddress = true) :
    s.latchHigh.Inv := by
  refine State.Going.inv h ?_
  have ha' : s.latchHigh.takesAddress = true := ha
  simp [State.controlOk, hc, ha']

/-- Stage 3 of an opcode with an address: what is left to show is the second pass. -/
theorem State.Going.inv_twoPass {s : State} {op : Opcode} {access : State → State} (h : s.Going)
    (hop : Opcode.ofByte s.ir = some op) (hf : op.format = .abs) (hc : s.executeCounter = true)
    (hlast : s.stepCounter = 4 → (access s.latchLow).Inv) : (s.twoPass access).Inv := by
  have hcount : s.stepCounter = 3 ∨ s.stepCounter = 4 := by simpa [State.executeCounter, hop, hf] using hc
  rcases hcount with h3 | h4
  · rw [State.twoPass, if_pos h3]
    exact h.inv_latchHigh h3 (by simp [State.takesAddress, hop, hf])
  · rw [State.twoPass, if_neg (by omega)]
    exact hlast h4

/-- Stage 3 of an opcode with an address whose second pass leads to stage 4. -/
theorem State.Going.inv_twoPass_of_advances {s : State} {op : Opcode} {access : State → State} (h : s.Going)
    (hop : Opcode.ofByte s.ir = some op) (hf : op.format = .abs) (hc : s.executeCounter = true)
    (hadv : s.latchLow.Advances (access s.latchLow)) : (s.twoPass access).Inv := by
  refine h.inv_twoPass hop hf hc (fun h4 => hadv.inv ?_ (fun e => ?_))
  · simp [State.finishCounter, hop, hf, h4]
  · obtain rfl : op = .sys := Option.some.inj (hop.symm.trans e)
    cases hf

/-- Stage 3 of SYS with xReg = 2: the two passes over the address, then the loop (R229). -/
theorem State.Going.inv_passSysString {s : State} (h : s.Going) (hs : s.step = .execute)
    (hop : Opcode.ofByte s.ir = some .sys) (hx : s.xReg = 2) (hc : s.executeCounter = true) : s.passSysString.Inv := by
  have hcount : 3 ≤ s.stepCounter := by simpa [State.executeCounter, hop, Opcode.format, hx] using hc
  unfold State.passSysString
  split
  · next h3 => exact h.inv_latchHigh h3 (by simp [State.takesAddress, hop, Opcode.format, hx])
  · next h3 =>
    have hloop : s.InString := ⟨h, hs, Opcode.byte_of_ofByte hop, hx, by omega⟩
    split
    · have hlatched : s.latchLow.InString := ⟨hloop.going, hloop.step, hloop.ir, hloop.xReg, hloop.stepCounter⟩
      exact hlatched.inv_stringPass.1
    · exact hloop.inv_stringPass.1

/-- Stage 3 of SYS under a selector that has a meaning (R226, R232). -/
theorem State.Going.inv_passSys {s t : State} (h : s.Going) (hs : s.step = .execute) (hop : Opcode.ofByte s.ir = some .sys)
    (hc : s.executeCounter = true) (ht : s.passSys = .next t) : t.Inv := by
  unfold State.passSys at ht
  split at ht
  · next hx =>
    cases ht
    refine h.advances_passSysInt.inv ?_ (fun _ => rfl)
    simpa [State.executeCounter, State.finishCounter, hop, Opcode.format, hx] using hc
  · split at ht
    · next hx => cases ht; exact h.inv_passSysString hs hop hx hc
    · cases ht

/-! ## The six stages (R140) -/

theorem State.Inv.fetch {s : State} (h : s.Inv) (hs : s.step = .fetch) : s.fetchRoutine.Inv := by
  have hc : s.stepCounter = 0 := by simpa [State.controlOk, hs] using h.control
  refine State.Going.inv (h.going_of_step (by simp [hs]) (by simp [hs])) ?_
  simp [State.controlOk, State.fetchRoutine_eq, hs, Stage.succ, hc]

theorem State.Inv.decodeOpcode {s : State} (h : s.Inv) (hs : s.step = .decodeOpcode) : s.decodeOpcode.Inv := by
  have hc : s.stepCounter = 1 := by simpa [State.controlOk, hs] using h.control
  refine State.Going.inv (h.going_of_step (by simp [hs]) (by simp [hs])) ?_
  simp [State.controlOk, hc]

/-- Stage 2 fetches the one operand byte, or the byte of an address that is due, or goes on, or stops (R144). -/
theorem State.Inv.decodeOperand {s : State} (h : s.Inv) (hrun : s.halted = none) (hs : s.step = .decodeOperand) :
    s.decodeOperand.Inv := by
  have hg := h.going hrun
  have hc : s.stepCounter = 2 ∨ s.stepCounter = 3 ∧ s.takesAddress = true := by
    simpa [State.controlOk, hs] using h.control
  cases hop : Opcode.ofByte s.ir with
  | none =>
    have h2 : s.stepCounter = 2 := by simpa [State.takesAddress, hop] using hc
    simpa only [State.decodeOperand, hop] using hg.inv_stopUnknown hs h2 hop
  | some op =>
    have hfetched : s.fetchRoutine.executeCounter = true → s.fetchRoutine.Inv := fun he =>
      State.Going.inv hg (by rw [State.controlOk_execute (by simp [State.fetchRoutine_eq, hs, Stage.succ]), he])
    have hdirect : (s.setStep .execute).executeCounter = true → (s.setStep .execute).Inv := fun he =>
      State.Going.inv hg (by rw [State.controlOk_execute rfl, he])
    simp only [State.decodeOperand, hop]
    cases hf : op.format with
    | impl =>
      have h2 : s.stepCounter = 2 := by simpa [State.takesAddress, hop, hf] using hc
      exact hdirect (by simp [State.executeCounter, hop, hf, h2])
    | imm | rel =>
      have h2 : s.stepCounter = 2 := by simpa [State.takesAddress, hop, hf] using hc
      exact hfetched (by simp [State.executeCounter, State.fetchRoutine_eq, hop, hf, h2])
    | abs =>
      have h23 : s.stepCounter = 2 ∨ s.stepCounter = 3 := by simpa [State.takesAddress, hop, hf] using hc
      exact hfetched (by simpa [State.executeCounter, State.fetchRoutine_eq, hop, hf] using h23)
    | sys =>
      by_cases hx : s.xReg = 2
      · have h3 : 3 ≤ s.stepCounter + 1 := by omega
        simp only [if_pos hx]
        exact hfetched (by simpa [State.executeCounter, State.fetchRoutine_eq, hop, hf, hx] using h3)
      · have ha : s.takesAddress = false := by simpa [State.takesAddress, hop, hf] using hx
        have h2 : s.stepCounter = 2 := by simpa [ha] using hc
        simp only [if_neg hx]
        exact hdirect (by simpa [State.executeCounter, hop, hf, h2] using hx)

/-- Stage 3, opcode by opcode (R145). -/
theorem State.Inv.execute {s t : State} (h : s.Inv) (hrun : s.halted = none) (hs : s.step = .execute)
    (ht : s.execute = .next t) : t.Inv := by
  have hg := h.going hrun
  have hlow : s.latchLow.Going := hg
  have hc : s.executeCounter = true := State.controlOk_execute hs ▸ h.control
  unfold State.execute at ht
  cases hop : Opcode.ofByte s.ir with
  | none => simp only [hop] at ht; cases ht
  | some op =>
    simp only [hop] at ht
    cases op with
    | ldaImm => cases ht; exact hg.advances_passLdaImm.inv_of_operand hop (.inl rfl) hc
    | lda => cases ht; exact hg.inv_twoPass_of_advances hop rfl hc hlow.advances_passLda
    | sta => cases ht; exact hg.inv_twoPass_of_advances hop rfl hc hlow.advances_passSta
    | adc => cases ht; exact hg.inv_twoPass hop rfl hc (fun h4 => hlow.inv_passAdc hs h4 (Opcode.byte_of_ofByte hop))
    | ldxImm => cases ht; exact hg.advances_passLdxImm.inv_of_operand hop (.inl rfl) hc
    | ldx => cases ht; exact hg.inv_twoPass_of_advances hop rfl hc hlow.advances_passLdx
    | ldyImm => cases ht; exact hg.advances_passLdyImm.inv_of_operand hop (.inl rfl) hc
    | ldy => cases ht; exact hg.inv_twoPass_of_advances hop rfl hc hlow.advances_passLdy
    | cpx => cases ht; exact hg.inv_twoPass_of_advances hop rfl hc hlow.advances_passCpx
    | bne => cases ht; exact hg.advances_passBne.inv_of_operand hop (.inr rfl) hc
    | inc => cases ht; exact hg.inv_twoPass_of_advances hop rfl hc hlow.advances_passInc
    | nop =>
      cases ht
      have h2 : s.stepCounter = 2 := by simpa [State.executeCounter, hop, Opcode.format] using hc
      refine hg.advances_passNop.inv ?_ (fun _ => rfl)
      simp only [State.finishCounter, h2, Opcode.byte_of_ofByte hop]
      rfl
    | sys => exact hg.inv_passSys hs hop hc ht
    | brk =>
      cases ht
      have h2 : s.stepCounter = 2 := by simpa [State.executeCounter, hop, Opcode.format] using hc
      exact hg.inv_passBrk hs h2 (Opcode.byte_of_ofByte hop)

theorem State.Inv.writeback {s : State} (h : s.Inv) (hs : s.step = .writeback) : s.writeback.Inv := by
  have hf : s.finishCounter = true := State.controlOk_writeback hs ▸ h.control
  have hg := h.going_of_step (by simp [hs]) (by simp [hs])
  refine hg.writeback.inv ?_
  rw [State.writeback_frame]
  exact hf

theorem State.Inv.interruptCheck {s : State} (h : s.Inv) (hs : s.step = .interruptCheck) : s.interruptCheck.Inv :=
  (h.going_of_step (by simp [hs]) (by simp [hs])).inv_interruptCheck

/-! ## Pulses and ticks (R134, R140) -/

theorem State.Inv.cpuPulse {s t : State} (h : s.Inv) (ht : s.cpuPulse = .next t) : t.Inv := by
  rcases State.cpuPulse_next ht with ⟨-, rfl⟩ | ⟨hrun, -, hstage⟩
  · exact h
  · rcases State.runStage_next hstage with ⟨hs, rfl⟩ | ⟨hs, rfl⟩ | ⟨hs, rfl⟩ | ⟨hs, hx⟩ | ⟨hs, rfl⟩ | ⟨hs, rfl⟩
    · exact h.fetch hs
    · exact h.decodeOpcode hs
    · exact h.decodeOperand hrun hs
    · exact h.execute hrun hs hx
    · exact h.writeback hs
    · exact h.interruptCheck hs

/-- A chain that goes on has gone on through its first part. -/
theorem andThen_eq_next {o : Host.Outcome State Fault Refusal} {f : State → Host.Outcome State Fault Refusal}
    {t : State} : andThen o f = .next t ↔ ∃ u, o = .next u ∧ f u = .next t := by
  cases o <;> simp [andThen]

theorem State.Inv.pulseAll {ls : List Listener} {s t : State} (h : s.Inv) (ht : State.pulseAll ls s = .next t) : t.Inv := by
  induction ls generalizing s with
  | nil => cases ht; exact h
  | cons l rest ih =>
    obtain ⟨u, hu, hrest⟩ := andThen_eq_next.1 ht
    refine ih ?_ hrest
    cases l with
    | cpu => exact h.cpuPulse hu
    | memory => cases hu; exact h
    | controller => cases hu; exact h

theorem State.Inv.tick {s t : State} (h : s.Inv) (ht : s.tick = .next t) : t.Inv := by
  unfold State.tick at ht
  split at ht
  · exact h.pulseAll ht
  · cases ht; exact h

/-! ## Actions from outside (R135) -/

theorem State.Inv.act {s t : State} (h : s.Inv) {a : Action} (ht : s.act a = .next t) : t.Inv := by
  cases a with
  | pushInput d v => cases ht; exact h.push d .input v
  | pushOutput d v => cases ht; exact h.push d .output v
  | acceptInterrupt d => cases ht; exact h.acceptInterrupt d
  | createDevice name irq priority => cases ht; exact h.createDevice name irq priority
  | addDevice d => cases ht; exact h.addDevice d
  | addListener c => cases ht; exact h.addListener c
  | start => cases ht; exact h.setRunning true
  | stop => cases ht; exact h.setRunning false
  | sendPulse => exact h.pulseAll ht
  | memoryReset => cases ht; exact h.memoryReset
  | store a b => cases ht; exact h.writeImmediate (.int a) b
  | rawStore i b => cases ht; exact h.rawWrite i b
  | recreate => cases ht; exact State.reset_inv.setInputs s.inputs

theorem State.Inv.actAll {as : List Action} {s t : State} (h : s.Inv) (ht : State.actAll as s = .next t) : t.Inv := by
  induction as generalizing s with
  | nil => cases ht; exact h
  | cons a rest ih =>
    obtain ⟨u, hu, hrest⟩ := andThen_eq_next.1 ht
    exact ih (h.act hu) hrest

/-! ## The step -/

theorem decodeOne_ne_unknown (op : Opcode) (mk : Byte → Instr) (bytes : List Byte) (b : Byte) :
    decodeOne op mk bytes ≠ .error (.unknownOpcode b) := by
  cases bytes <;> nofun

theorem decodeTwo_ne_unknown (op : Opcode) (mk : Byte → Byte → Instr) (bytes : List Byte) (b : Byte) :
    decodeTwo op mk bytes ≠ .error (.unknownOpcode b) := by
  unfold decodeTwo
  split <;> nofun

theorem decodeOperands_ne_unknown (op : Opcode) (x : Byte) (bytes : List Byte) (b : Byte) :
    decodeOperands op x bytes ≠ .error (.unknownOpcode b) := by
  cases op with
  | ldaImm | ldxImm | ldyImm | bne => exact decodeOne_ne_unknown _ _ bytes b
  | lda | sta | adc | ldx | ldy | cpx | inc => exact decodeTwo_ne_unknown _ _ bytes b
  | nop | brk => nofun
  | sys =>
    simp only [decodeOperands]
    split
    · exact decodeTwo_ne_unknown _ _ bytes b
    · nofun

/-- The decoder rejects a byte as unknown only when it is outside the opcode table (R106). -/
theorem ofByte_of_decode_unknown {x b : Byte} {bytes : List Byte} (h : decode x bytes = .error (.unknownOpcode b)) :
    Opcode.ofByte b = none := by
  unfold decode at h
  split at h
  · cases h
  · split at h
    · next hop => cases h; exact hop
    · exact absurd h (decodeOperands_ne_unknown _ _ _ _)

theorem State.Inv.runInstruction {s t : State} (h : s.Inv) (hready : s.ready = true) (ht : s.runInstruction = .next t) :
    t.Inv := by
  obtain ⟨hlive, hs, hc⟩ := (State.ready_iff s).1 hready
  obtain ⟨-, -, hrun, -⟩ := (State.live_iff s).1 hlive
  unfold State.runInstruction at ht
  split at ht
  · exact exec_inv h hrun hc ht
  · next b hd =>
    cases ht
    have hg : ((s.latchFetch b).decodeOpcode).Going := h.going hrun
    exact hg.inv_stopUnknown rfl (by simp [hc]) (ofByte_of_decode_unknown hd)
  · exact h.tick ht

theorem step_inv {s t : State} (h : s.Inv) (ht : step s = .next t) : t.Inv := by
  unfold step at ht
  split at ht
  · split at ht
    · next hready => exact h.runInstruction hready ht
    · exact h.tick ht
  · next slot rest _ =>
    obtain ⟨u, hu, htick⟩ := andThen_eq_next.1 ht
    exact ((h.setInputs rest).actAll hu).tick htick

/-! ## The obligations -/

/-- Settles O1: each piece of state is read off `State.reset`, and a cell that nothing has written holds zero. -/
theorem resetHoldsTableValues : Obligations.ResetHoldsTableValues := by
  have hmem : ∀ a, State.reset.byteAt a = 0x00 := fun a => Memory.read_nil (cellIndex a).toNat
  exact ⟨hmem, rfl, rfl, rfl, rfl, rfl, rfl, rfl, rfl, rfl, rfl, rfl, rfl, rfl, rfl, rfl, rfl, rfl, rfl, rfl, rfl⟩

/-- Settles O2: the base case of O3. -/
theorem invariantHoldsAtReset : Obligations.InvariantHoldsAtReset := State.reset_inv

/-- Settles O3: a step is a whole instruction, a stop on an unknown byte, or actions from outside and a tick, and each
keeps the invariant. -/
theorem invariantKeptByStep : Obligations.InvariantKeptByStep := fun _ _ => step_inv

end Sys2Proof.Machine
end

/-! # The byte swap, the MAR/MDR protocol, raw mode and the dump (20_memory) -/

section

namespace Sys2Proof.Machine

/-! ## The byte swap (R64) -/

theorem cellIndex_toNat (a : Addr) : (cellIndex a).toNat = a.toNat % 256 * 256 + a.toNat / 256 := by
  rw [cellIndex, pairAddr_toNat, loByte_toNat, hiByte_toNat]

@[simp] theorem cellIndex_pairAddr (b0 b1 : Byte) : cellIndex (pairAddr b0 b1) = pairAddr b1 b0 := by
  rw [cellIndex, loByte_pairAddr, hiByte_pairAddr]

@[simp] theorem cellIndex_cellIndex (a : Addr) : cellIndex (cellIndex a) = a := by
  rw [cellIndex.eq_def a, cellIndex_pairAddr, pairAddr_bytes]

theorem cellIndex_bijective : Function.Bijective cellIndex := Function.Involutive.bijective cellIndex_cellIndex

/-- The addresses that are their own cell index are those of two equal bytes (R70). -/
theorem cellIndex_pairAddr_eq_self_iff (b0 b1 : Byte) : cellIndex (pairAddr b0 b1) = pairAddr b0 b1 ↔ b0 = b1 := by
  rw [cellIndex_pairAddr]
  constructor
  · exact fun h => (pairAddr_inj h).2
  · rintro rfl; rfl

/-! ## Immediate reads and writes (R66, R67, R69) -/

/-- The two forms of an address stand for the same MAR value (R63). -/
theorem AddrForm.addr_pair_bytes (a : Addr) : (AddrForm.pair (hiByte a) (loByte a)).addr = (AddrForm.int a).addr :=
  pairAddr_bytes a

theorem State.readImmediate_pair_bytes (s : State) (a : Addr) :
    s.readImmediate (.pair (hiByte a) (loByte a)) = s.readImmediate (.int a) := by
  rw [State.readImmediate_eq, AddrForm.addr_pair_bytes, ← State.readImmediate_eq]

theorem State.writeImmediate_pair_bytes (s : State) (a : Addr) (v : Byte) :
    s.writeImmediate (.pair (hiByte a) (loByte a)) v = s.writeImmediate (.int a) v := by
  rw [State.writeImmediate_eq, AddrForm.addr_pair_bytes, ← State.writeImmediate_eq]

theorem State.readImmediate_getMdr (s : State) (f : AddrForm) : (s.readImmediate f).getMdr = s.byteAt f.addr := by
  rw [State.readImmediate_eq]; rfl

theorem State.writeImmediate_mem (s : State) (f : AddrForm) (v : Byte) :
    (s.writeImmediate f v).mem = Memory.write s.mem (cellIndex f.addr).toNat v := by
  rw [State.writeImmediate_eq]

theorem State.byteAt_writeImmediate (s : State) (f : AddrForm) (v : Byte) (a : Addr) :
    (s.writeImmediate f v).byteAt a = if a = f.addr then v else s.byteAt a :=
  State.byteAt_of_write (s.writeImmediate_mem f v) a

/-! ## Raw mode (R70) -/

/-- The one cell a write changes, for any state whose array is that of `s` after a write at cell `i`. -/
theorem State.rawRead_of_write {s t : State} {i : Addr} {v : Byte} (h : t.mem = Memory.write s.mem i.toNat v)
    (j : Addr) : t.rawRead j = if j = i then v else s.rawRead j := by
  simp only [State.rawRead, h, Memory.read_write, BitVec.toNat_inj]

theorem State.rawRead_rawWrite (s : State) (i : Addr) (v : Byte) (j : Addr) :
    (s.rawWrite i v).rawRead j = if j = i then v else s.rawRead j :=
  State.rawRead_of_write (s.rawWrite_mem i v) j

theorem State.rawRead_writeImmediate (s : State) (f : AddrForm) (v : Byte) (j : Addr) :
    (s.writeImmediate f v).rawRead j = if j = cellIndex f.addr then v else s.rawRead j :=
  State.rawRead_of_write (s.writeImmediate_mem f v) j

theorem State.rawRead_memoryReset (s : State) (j : Addr) : s.memoryReset.rawRead j = 0x00 := Memory.read_nil j.toNat

/-! ## The dump (R82) -/

theorem toNat_ofInt_of_inArray {i : Int} (h : 0 ≤ i ∧ i < 65536) : (BitVec.ofInt 16 i).toNat = i.toNat := by
  obtain ⟨hlo, hhi⟩ := h
  rw [BitVec.toNat_ofInt, Int.emod_eq_of_lt hlo (by simpa using hhi)]

theorem State.dumpEntry_eq (s : State) (i : Int) :
    s.dumpEntry i = if 0 ≤ i ∧ i < 65536 then .stored (s.rawRead (BitVec.ofInt 16 i))
                    else .outside Config.dumpPlaceholder := by
  by_cases h : 0 ≤ i ∧ i < 65536
  · rw [if_pos h, State.rawRead, toNat_ofInt_of_inArray h]
    exact if_pos h
  · rw [if_neg h]
    exact if_neg h

theorem State.memoryDump_length (s : State) (first last : Int) :
    (s.memoryDump first last).length = (last + 1 - first).toNat := by
  simp [State.memoryDump]

theorem State.memoryDump_getElem? (s : State) {first last : Int} {k : Nat} (h : first + k ≤ last) :
    (s.memoryDump first last)[k]? = some (first + k, s.dumpEntry (first + k)) := by
  have hk : k < (last + 1 - first).toNat := by omega
  simp [State.memoryDump, List.getElem?_range hk]

/-! ## A store and the fetch that follows it (R80) -/

theorem State.retire_mem {s : State} (h : s.ir ≠ 0xEE) : s.retire.mem = s.mem := by
  rw [State.retire, State.interruptCheck_frame]
  exact State.writeback_mem h

/-- STA answers a next state whose array is the old one with `acc[7:0]` stored at `hi:lo` (R182). -/
theorem exec_sta_mem (hi lo : Byte) (s : State) :
    ∃ t, exec (.sta hi lo) s = .next t ∧ t.mem = Memory.write s.mem (cellIndex (pairAddr hi lo)).toNat s.accByte := by
  refine ⟨(s.worked (.sta hi lo)).retire, rfl, ?_⟩
  have hir : (s.worked (.sta hi lo)).ir ≠ 0xEE := by
    rw [State.worked_ir]
    exact Opcode.byte_ne_inc nofun
  rw [State.retire_mem hir, State.worked, State.passSta_eq, State.issueAddress_eq]
  rfl

theorem State.fetchRoutine_opp (s : State) : s.fetchRoutine.opp = s.byteAt (fetchAddr s.pc) := rfl

/-! ## The obligations -/

/-- Settles O5: the swap exchanges the bytes of a pair, so it undoes itself; the examples are closed facts. -/
theorem cellExchangesAddressBytes : Obligations.CellExchangesAddressBytes :=
  ⟨cellIndex_toNat, cellIndex_pairAddr, cellIndex_cellIndex, cellIndex_bijective, by decide⟩

/-- Settles O6: every form of an address goes through the MAR value it stands for. -/
theorem readLeavesMarAndMdr : Obligations.ReadLeavesMarAndMdr := fun s n a b0 b1 =>
  ⟨s.setAddress_eq (.int n), s.setAddress_eq (.pair b0 b1), pairAddr_toNat b0 b1, s.readImmediate_eq (.int a),
    s.readImmediate_pair_bytes a, s.readImmediate_getMdr (.int a)⟩

/-- Settles O7: a write is one write to the array at the selected cell, and STA's last pass is such a write. -/
theorem writeChangesOneCell : Obligations.WriteChangesOneCell := by
  intro s a v
  have hframe : s.writeImmediate (.int a) v =
      { s with mar := a, mdr := v, mem := (s.writeImmediate (.int a) v).mem } := by
    rw [State.writeImmediate_eq]; rfl
  have hacc : s.acc.toNat ≤ 0xFF → (s.acc.setWidth 8).toNat = s.acc.toNat := fun h => by
    rw [BitVec.toNat_setWidth, Nat.mod_eq_of_lt (Nat.lt_succ_of_le h)]
  exact ⟨hframe, s.writeImmediate_pair_bytes a v, s.rawRead_writeImmediate (.int a) v, rfl, hacc⟩

/-- Settles O8: a read returns the byte at its address, and a write changes the byte at its own address only. -/
theorem writeThenReadReturnsValue : Obligations.WriteThenReadReturnsValue := by
  intro s b0 b1 v
  constructor
  · rw [State.readImmediate_getMdr, State.byteAt_writeImmediate, if_pos rfl]
  · intro a ha
    have hne : (AddrForm.int a).addr ≠ (AddrForm.pair b0 b1).addr := ha
    rw [State.readImmediate_getMdr, State.byteAt_writeImmediate, if_neg hne, State.readImmediate_getMdr]

/-- Settles O9: a raw write names its cell itself, and the swap moves every pair of two different bytes. -/
theorem rawModeAndMemoryReset : Obligations.RawModeAndMemoryReset := by
  intro s i v b0 b1
  have hreached : (s.writeImmediate (.pair b0 b1) v).rawRead (pairAddr b1 b0) = v := by
    rw [State.rawRead_writeImmediate]
    exact if_pos (cellIndex_pairAddr b0 b1).symm
  exact ⟨rfl, s.rawRead_rawWrite i v, hreached, cellIndex_pairAddr_eq_self_iff b0 b1, rfl, s.rawRead_memoryReset⟩

/-- Settles O10: the dump has one entry per index of its range, and each entry is the dump of that one index. -/
theorem dumpListsInclusiveRange : Obligations.DumpListsInclusiveRange := fun s first last =>
  ⟨s.memoryDump_length first last, fun _ hk => by rw [s.memoryDump_getElem? hk, State.dumpEntry_eq]⟩

/-- Settles O57: STA to `0x00:n` stores at the address that the fetch routine reads at pc `n`. -/
theorem storeSeenByNextFetch : Obligations.StoreSeenByNextFetch := by
  intro s n
  obtain ⟨t, ht, hmem⟩ := exec_sta_mem 0x00 n s
  refine ⟨t, ht, ?_⟩
  have hbyte : t.byteAt (fetchAddr n) = s.accByte := by
    rw [State.byteAt_of_write hmem]
    exact if_pos rfl
  rw [State.fetchRoutine_opp]
  exact hbyte

end Sys2Proof.Machine
end

/-! # The decoder and the encoder (30_encoding), and the step that runs what is decoded -/

section

namespace Sys2Proof.Machine

/-! ## Opcode bytes (R104, R105) -/

@[simp] theorem Opcode.ofByte_byte (op : Opcode) : Opcode.ofByte op.byte = some op := by
  cases op <;> rfl

/-- An unknown opcode byte is the byte of none of the opcodes. -/
theorem Opcode.not_mem_map_byte {b : Byte} (h : Opcode.ofByte b = none) (ops : List Opcode) :
    b ∉ ops.map Opcode.byte := by
  intro hb
  obtain ⟨op, -, rfl⟩ := List.mem_map.1 hb
  simp at h

/-! ## The length of R107 -/

theorem lengthOf_of_unknown {b : Byte} (h : Opcode.ofByte b = none) (x : Byte) : lengthOf b x = none := by
  rw [lengthOf, h, Option.map_none]

theorem lengthOf_sys (x : Byte) : lengthOf (Opcode.byte .sys) x = if x = 2 then some 3 else some 1 :=
  apply_ite some (x = 2) 3 1

theorem encodedLength (i : Instr) : Laws.EncodedLength.Statement i := by
  cases i with
  | ldaImm imm => exact Laws.EncodedLength.ldaImm imm
  | lda hi lo => exact Laws.EncodedLength.lda hi lo
  | sta hi lo => exact Laws.EncodedLength.sta hi lo
  | adc hi lo => exact Laws.EncodedLength.adc hi lo
  | ldxImm imm => exact Laws.EncodedLength.ldxImm imm
  | ldx hi lo => exact Laws.EncodedLength.ldx hi lo
  | ldyImm imm => exact Laws.EncodedLength.ldyImm imm
  | ldy hi lo => exact Laws.EncodedLength.ldy hi lo
  | cpx hi lo => exact Laws.EncodedLength.cpx hi lo
  | bne off => exact Laws.EncodedLength.bne off
  | inc hi lo => exact Laws.EncodedLength.inc hi lo
  | nop => exact Laws.EncodedLength.nop
  | sys => exact Laws.EncodedLength.sys
  | sysStr hi lo => exact Laws.EncodedLength.sysStr hi lo
  | brk => exact Laws.EncodedLength.brk

theorem length_encode (i : Instr) : (encode i).length = i.length := (encodedLength i).1

theorem lengthOf_of_wellFormed {i : Instr} {x : Byte} (h : i.wellFormed x = true) :
    lengthOf i.opcode.byte x = some i.length := (encodedLength i).2.2 x h

/-! ## Reading the operand bytes (R101, R102) -/

theorem decodeOne_eq_ok {op : Opcode} {mk : Byte → Instr} {bytes rest : List Byte} {i : Instr}
    (h : decodeOne op mk bytes = .ok (i, rest)) : ∃ b, bytes = b :: rest ∧ i = mk b := by
  cases bytes with
  | nil => cases h
  | cons b tail => cases h; exact ⟨b, rfl, rfl⟩

theorem decodeTwo_eq_ok {op : Opcode} {mk : Byte → Byte → Instr} {bytes rest : List Byte} {i : Instr}
    (h : decodeTwo op mk bytes = .ok (i, rest)) : ∃ hi lo, bytes = hi :: lo :: rest ∧ i = mk hi lo := by
  unfold decodeTwo at h
  split at h
  · next hi lo tail => cases h; exact ⟨hi, lo, rfl, rfl⟩
  · cases h

theorem decodeOperands_sys (x : Byte) (bytes : List Byte) :
    decodeOperands .sys x bytes = if x = 2 then decodeTwo .sys .sysStr bytes else .ok (.sys, bytes) := rfl

/-- The operand bytes read are those of the instruction answered, in the form that R107 gives it. -/
theorem decodeOperands_eq_ok {op : Opcode} {x : Byte} {bytes rest : List Byte} {i : Instr}
    (h : decodeOperands op x bytes = .ok (i, rest)) :
    i.opcode = op ∧ bytes = i.operands ++ rest ∧ lengthOf op.byte x = some i.length := by
  cases op with
  | ldaImm | ldxImm | ldyImm | bne =>
    obtain ⟨b, rfl, rfl⟩ := decodeOne_eq_ok h
    exact ⟨rfl, rfl, rfl⟩
  | lda | sta | adc | ldx | ldy | cpx | inc =>
    obtain ⟨hi, lo, rfl, rfl⟩ := decodeTwo_eq_ok h
    exact ⟨rfl, rfl, rfl⟩
  | nop | brk => cases h; exact ⟨rfl, rfl, rfl⟩
  | sys =>
    rw [decodeOperands_sys] at h
    rw [lengthOf_sys]
    split at h
    · next hx =>
      obtain ⟨hi, lo, rfl, rfl⟩ := decodeTwo_eq_ok h
      exact ⟨rfl, rfl, if_pos hx⟩
    · next hx => cases h; exact ⟨rfl, rfl, if_neg hx⟩

/-- An instruction's operand bytes are read back as that instruction when its form is the one R107 selects. -/
theorem decodeOperands_operands {i : Instr} {x : Byte} (h : lengthOf i.opcode.byte x = some i.length)
    (rest : List Byte) : decodeOperands i.opcode x (i.operands ++ rest) = .ok (i, rest) := by
  cases i with
  | sys =>
    have hx : x ≠ 2 := by rintro rfl; cases h
    exact if_neg hx
  | sysStr hi lo =>
    have hx : x = 2 := by
      by_contra hne
      have hone : lengthOf (Opcode.byte .sys) x = some 1 := by rw [lengthOf_sys, if_neg hne]
      cases hone.symm.trans h
    exact if_pos hx
  | _ => rfl

/-! ## The whole decoder -/

theorem decode_of_unknown {b : Byte} (h : Opcode.ofByte b = none) (x : Byte) (rest : List Byte) :
    decode x (b :: rest) = .error (.unknownOpcode b) := by
  simp only [decode, h]

theorem decode_byte_cons (op : Opcode) (x : Byte) (rest : List Byte) :
    decode x (op.byte :: rest) = decodeOperands op x rest := by
  simp only [decode, Opcode.ofByte_byte]

theorem decode_eq_ok {x : Byte} {bytes : List Byte} {r : Instr × List Byte} (h : decode x bytes = .ok r) :
    ∃ op tail, bytes = Opcode.byte op :: tail ∧ decodeOperands op x tail = .ok r := by
  cases bytes with
  | nil => cases h
  | cons b tail =>
    cases hop : Opcode.ofByte b with
    | none => cases (decode_of_unknown hop x tail).symm.trans h
    | some op =>
      obtain rfl := Opcode.byte_of_ofByte hop
      exact ⟨op, tail, rfl, (decode_byte_cons op x tail).symm.trans h⟩

/-- The decoder is exact: it answers an instruction when the bytes begin with its encoding and its form is the one whose
length R107 gives under `x`, and at no other bytes. -/
theorem decode_eq_ok_iff {x : Byte} {bytes rest : List Byte} {i : Instr} :
    decode x bytes = .ok (i, rest) ↔ bytes = encode i ++ rest ∧ lengthOf i.opcode.byte x = some i.length := by
  constructor
  · intro h
    obtain ⟨op, tail, rfl, hop⟩ := decode_eq_ok h
    obtain ⟨rfl, rfl, hlen⟩ := decodeOperands_eq_ok hop
    exact ⟨rfl, hlen⟩
  · rintro ⟨rfl, hlen⟩
    exact (decode_byte_cons i.opcode x (i.operands ++ rest)).trans (decodeOperands_operands hlen rest)

theorem decode_encode {i : Instr} {x : Byte} (h : i.wellFormed x = true) (rest : List Byte) :
    decode x (encode i ++ rest) = .ok (i, rest) :=
  decode_eq_ok_iff.2 ⟨rfl, lengthOf_of_wellFormed h⟩

/-- The decoder consumes as many bytes as R107 gives the instruction. -/
theorem lengthOf_of_decode {x b : Byte} {bytes rest : List Byte} {i : Instr}
    (h : decode x (b :: bytes) = .ok (i, rest)) : lengthOf b x = some ((b :: bytes).length - rest.length) := by
  obtain ⟨hbytes, hlen⟩ := decode_eq_ok_iff.1 h
  have hb : b = i.opcode.byte := (List.cons.inj hbytes).1
  have hconsumed : (b :: bytes).length - rest.length = i.length := by
    rw [hbytes, List.length_append, Nat.add_sub_cancel, length_encode]
  rw [hconsumed, hb, hlen]

/-! ## The step at an instruction boundary (R107, R152) -/

theorem step_of_ready {s : State} (hin : s.inputs = []) (hready : s.ready = true) : step s = s.runInstruction := by
  simp only [step, hin, hready, if_true]

theorem State.runInstruction_of_decodeNext {s : State} {i : Instr} {rest : List Byte}
    (h : s.decodeNext = .ok (i, rest)) : s.runInstruction = exec i s := by
  simp only [State.runInstruction, h]

/-! ## The obligations -/

/-- Settles O11: a well-formed instruction's form is the one R107 selects, so the decoder reads it back. -/
theorem decodeOfEncode : Obligations.DecodeOfEncode := fun _ _ rest h => decode_encode h rest

/-- Settles O12: the first half of the decoder's exactness. -/
theorem encodeOfDecode : Obligations.EncodeOfDecode := fun _ _ _ _ h => (decode_eq_ok_iff.1 h).1

/-- Settles O13: a byte is unknown and in no row of R107's table, or it is the byte of one opcode and in that one's row. -/
theorem lengthFromOpcodeAndSelector : Obligations.LengthFromOpcodeAndSelector := by
  refine ⟨fun ir x => ?_, fun _ _ _ _ _ => lengthOf_of_decode⟩
  cases hop : Opcode.ofByte ir with
  | none =>
    have hone : ir ∉ ([0xEA, 0x00] : List Byte) := Opcode.not_mem_map_byte hop [.nop, .brk]
    have hsys : ir ≠ 0xFF := fun h => Opcode.not_mem_map_byte hop [.sys] (List.mem_singleton.2 h)
    have htwo : ir ∉ ([0xA9, 0xA2, 0xA0, 0xD0] : List Byte) :=
      Opcode.not_mem_map_byte hop [.ldaImm, .ldxImm, .ldyImm, .bne]
    have hthree : ir ∉ ([0xAD, 0x8D, 0x6D, 0xAE, 0xAC, 0xEC, 0xEE] : List Byte) :=
      Opcode.not_mem_map_byte hop [.lda, .sta, .adc, .ldx, .ldy, .cpx, .inc]
    rw [lengthOf_of_unknown hop, if_neg hone, if_neg hsys, if_neg htwo, if_neg hthree]
  | some op =>
    obtain rfl := Opcode.byte_of_ofByte hop
    cases op with
    | sys => exact lengthOf_sys x
    | _ => rfl

/-- Settles O14: the byte values are counted one by one, and the decoder looks at the first byte before any other. -/
theorem unknownBytesRejected : Obligations.UnknownBytesRejected :=
  ⟨by decide +kernel, fun _ x rest h => decode_of_unknown h x rest⟩

/-- Settles O15: the bytes are the encodings by computation, and each encoding decodes by O11's lemma. -/
theorem sampleEncodingsDecode : Obligations.SampleEncodingsDecode :=
  ⟨rfl, rfl, rfl, rfl, rfl, rfl, rfl, rfl,
    decode_encode (i := .ldaImm 0x05) rfl [], decode_encode (i := .sta 0x00 0x40) rfl [],
    decode_encode (i := .adc 0x12 0x34) rfl [], decode_encode (i := .bne 0x0A) rfl [],
    decode_encode (i := .nop) rfl [], decode_encode (i := .brk) rfl [], decode_encode (i := .sys) rfl [],
    decode_encode (i := .sysStr 0x00 0x20) rfl []⟩

/-- Settles O40: at a boundary with nothing scheduled the step is the whole instruction, and that is what is decoded. -/
theorem stepRunsDecodedInstruction : Obligations.StepRunsDecodedInstruction := by
  rintro s i hin ⟨hready, rest, hdecode⟩ -
  rw [step_of_ready hin hready, State.runInstruction_of_decodeNext hdecode]

end Sys2Proof.Machine
end

/-! # The stages of the pipeline, one by one (40_clock_and_pipeline R140 to R150) -/

section

namespace Sys2Proof.Machine

theorem Opcode.ofByte_of_eq {b : Byte} {op : Opcode} (h : b = op.byte) : Opcode.ofByte b = some op :=
  h ▸ Opcode.ofByte_byte op

/-! ## Stages 0 to 2 (R142 to R144) -/

/-- The fetch address is `zext_16(pc)` (R9, R68). -/
theorem fetchAddr_toNat (pc : Byte) : (fetchAddr pc).toNat = pc.toNat := by
  simp [fetchAddr, pairAddr_toNat]

theorem State.decodeOperand_unknown {s : State} (h : Opcode.ofByte s.ir = none) :
    s.decodeOperand = s.raiseStop .unknownOpcode := by
  simp only [State.decodeOperand, h]

theorem State.decodeOperand_impl {s : State} {op : Opcode} (h : Opcode.ofByte s.ir = some op) (hf : op.format = .impl) :
    s.decodeOperand = s.setStep .execute := by
  simp only [State.decodeOperand, h, hf]

/-- Outside the formats IMPL and SYS, stage 2 always fetches. -/
theorem State.decodeOperand_operand {s : State} {op : Opcode} (h : Opcode.ofByte s.ir = some op)
    (hf : op.format ∈ [.imm, .rel, .abs]) : s.decodeOperand = s.fetchRoutine := by
  simp only [State.decodeOperand, h]
  cases hop : op.format with
  | imm | rel | abs => rfl
  | impl | sys => simp [hop] at hf

theorem State.decodeOperand_sys {s : State} (h : Opcode.ofByte s.ir = some .sys) :
    s.decodeOperand = if s.xReg = 2 then s.fetchRoutine else s.setStep .execute := by
  simp only [State.decodeOperand, h, Opcode.format]

/-! ## Stage 3 (R145, R147) -/

/-- The work of an opcode in its last pass through stage 3. SYS stands here with its integer form; its string form has a
pass of its own, `State.stringPass`. -/
def Opcode.lastPass : Opcode → State → State
  | .ldaImm => State.passLdaImm
  | .lda => State.passLda
  | .sta => State.passSta
  | .adc => State.passAdc
  | .ldxImm => State.passLdxImm
  | .ldx => State.passLdx
  | .ldyImm => State.passLdyImm
  | .ldy => State.passLdy
  | .cpx => State.passCpx
  | .bne => State.passBne
  | .inc => State.passInc
  | .nop => State.passNop
  | .sys => State.passSysInt
  | .brk => State.passBrk

theorem State.execute_unknown {s : State} (h : Opcode.ofByte s.ir = none) :
    s.execute = .refused .executeUnknownIr := by
  simp only [State.execute, h]

theorem State.execute_sys {s : State} (h : Opcode.ofByte s.ir = some .sys) : s.execute = s.passSys := by
  simp only [State.execute, h]

/-- An opcode with two address bytes takes two passes through stage 3. -/
theorem State.execute_address {s : State} {op : Opcode} (h : Opcode.ofByte s.ir = some op) (hf : op.format = .abs) :
    s.execute = .next (s.twoPass (Opcode.lastPass op)) := by
  simp only [State.execute, h]
  cases op with
  | lda | sta | adc | ldx | ldy | cpx | inc => rfl
  | _ => cases hf

/-- Every other opcode but SYS takes one. -/
theorem State.execute_single {s : State} {op : Opcode} (h : Opcode.ofByte s.ir = some op)
    (hf : op.format ∈ [.impl, .imm, .rel]) : s.execute = .next (Opcode.lastPass op s) := by
  simp only [State.execute, h]
  cases op with
  | ldaImm | ldxImm | ldyImm | bne | nop | brk => rfl
  | _ => simp [Opcode.format] at hf

theorem State.twoPass_first {s : State} (h : s.stepCounter = 3) (access : State → State) :
    s.twoPass access = s.latchHigh := if_pos h

theorem State.twoPass_last {s : State} (h : s.stepCounter ≠ 3) (access : State → State) :
    s.twoPass access = access s.latchLow := if_neg h

theorem State.passSys_one {s : State} (h : s.xReg = 1) : s.passSys = .next s.passSysInt := if_pos h

theorem State.passSys_two {s : State} (h : s.xReg = 2) : s.passSys = .next s.passSysString := by
  rw [State.passSys, if_neg (by rw [h]; decide), if_pos h]

theorem State.passSys_other {s : State} (h1 : s.xReg ≠ 1) (h2 : s.xReg ≠ 2) : s.passSys = .refused .sysSelector := by
  rw [State.passSys, if_neg h1, if_neg h2]

/-! ## Stages 4 and 5 (R148, R149) -/

theorem State.writeback_of_ne_inc {s : State} (h : s.ir ≠ 0xEE) : s.writeback = { s with step := .interruptCheck } := by
  rw [State.writeback, if_neg h]
  rfl

theorem State.writeback_inc {s : State} (h : s.ir = 0xEE) :
    s.writeback = { s with mar := s.latched, mdr := s.byteAt s.latched + 1,
                           mem := Memory.write s.mem (cellIndex s.latched).toNat (s.byteAt s.latched + 1),
                           step := .interruptCheck } := by
  rw [State.writeback, if_pos h, State.incrementCell_eq]
  rfl

/-! ## The pulse (R140) -/

theorem State.accInRange_iff (s : State) : s.accInRange = true ↔ s.acc.toNat ≤ 0xFF := decide_eq_true_iff

theorem State.runStage_fetch {s : State} (h : s.step = .fetch) : s.runStage = .next s.fetchRoutine := by
  simp only [State.runStage, h]

theorem State.runStage_decodeOpcode {s : State} (h : s.step = .decodeOpcode) : s.runStage = .next s.decodeOpcode := by
  simp only [State.runStage, h]

theorem State.runStage_decodeOperand {s : State} (h : s.step = .decodeOperand) : s.runStage = .next s.decodeOperand := by
  simp only [State.runStage, h]

theorem State.runStage_execute {s : State} (h : s.step = .execute) : s.runStage = s.execute := by
  simp only [State.runStage, h]

theorem State.runStage_writeback {s : State} (h : s.step = .writeback) : s.runStage = .next s.writeback := by
  simp only [State.runStage, h]

theorem State.runStage_interruptCheck {s : State} (h : s.step = .interruptCheck) :
    s.runStage = .next s.interruptCheck := by
  simp only [State.runStage, h]

/-! ## The obligations -/

/-- Settles O33: a pulse of a running CPU is its stage's logic, and that is read off `step`. -/
theorem pulseRunsOneStage : Obligations.PulseRunsOneStage := by
  intro s
  refine ⟨fun hstop => State.cpuPulse_halted (Option.isSome_iff_ne_none.2 hstop), fun hrun hacc => ?_⟩
  rw [State.cpuPulse_running hrun (s.accInRange_iff.2 hacc)]
  exact ⟨State.runStage_fetch, State.runStage_decodeOpcode, State.runStage_decodeOperand, State.runStage_execute,
    State.runStage_writeback, State.runStage_interruptCheck⟩

/-- Settles O34: the fetch routine latches the byte at pc, and adding 1 to a byte is adding 1 modulo 256. -/
theorem fetchAndDecodeOpcodePulses : Obligations.FetchAndDecodeOpcodePulses := by
  intro s
  have hpc : s.pc + 1 = BitVec.ofNat 8 (s.pc.toNat + 1) := by
    rw [BitVec.ofNat_add, BitVec.ofNat_toNat, BitVec.setWidth_eq]
    rfl
  have hstep : s.fetchRoutine.step = s.step.succ := rfl
  refine ⟨?_, fetchAddr_toNat s.pc, fun h => by rw [hstep, h]; rfl, fun h => by rw [hstep, h]; rfl, rfl⟩
  rw [State.fetchRoutine_eq, State.latchFetch, hpc]

/-- Settles O35: a byte is outside the table and stops the machine, or is the byte of one opcode, whose format decides. -/
theorem decodeOperandDispatch : Obligations.DecodeOperandDispatch := by
  intro s
  cases hop : Opcode.ofByte s.ir with
  | none =>
    have hdirect : s.ir ∉ ([0xEA, 0x00] : List Byte) := Opcode.not_mem_map_byte hop [.nop, .brk]
    have hsys : s.ir ≠ 0xFF := fun h => Opcode.not_mem_map_byte hop [.sys] (List.mem_singleton.2 h)
    have hoperand : s.ir ∉ ([0xA9, 0xAD, 0x8D, 0x6D, 0xA2, 0xAE, 0xA0, 0xAC, 0xEC, 0xD0, 0xEE] : List Byte) :=
      Opcode.not_mem_map_byte hop [.ldaImm, .lda, .sta, .adc, .ldxImm, .ldx, .ldyImm, .ldy, .cpx, .bne, .inc]
    rw [State.decodeOperand_unknown hop, if_neg hdirect, if_neg hsys, if_neg hoperand]
    rfl
  | some op =>
    have hir := Opcode.byte_of_ofByte hop
    cases op with
    | nop | brk =>
      rw [State.decodeOperand_impl hop rfl, if_pos (by rw [hir]; decide)]
      rfl
    | sys =>
      have hdirect : s.ir ∉ ([0xEA, 0x00] : List Byte) := by rw [hir]; decide
      have hsys : s.ir = 0xFF := hir
      rw [State.decodeOperand_sys hop, if_neg hdirect, if_pos hsys]
      rfl
    | _ =>
      rw [State.decodeOperand_operand hop (by decide), if_neg (by rw [hir]; decide), if_neg (by rw [hir]; decide),
        if_pos (by rw [hir]; decide)]

/-- Settles O36: the seven bytes are those of the opcodes with two address bytes, and `stepCounter` tells the pass. -/
theorem addressGatheredInTwoPasses : Obligations.AddressGatheredInTwoPasses := by
  intro s hs
  have hmem : s.ir ∈ [Opcode.lda, .sta, .adc, .ldx, .ldy, .cpx, .inc].map Opcode.byte := hs
  obtain ⟨op, hlist, hir⟩ := List.mem_map.1 hmem
  have hop : Opcode.ofByte s.ir = some op := Opcode.ofByte_of_eq hir.symm
  have hf : op.format = .abs := by
    revert hlist
    cases op <;> decide
  rw [State.execute_address hop hf]
  refine ⟨fun h3 => by rw [State.twoPass_first h3]; rfl, ?_⟩
  intro hne u hu
  rw [State.twoPass_last hne, show s.latchLow = u from hu.symm, ← hir]
  cases op with
  | lda | sta | adc | ldx | ldy | cpx | inc => rfl
  | _ => cases hf

/-- Settles O37: only INC has work in stage 4, and its work is one write at `irx:iry`. -/
theorem writebackOnlyIncrements : Obligations.WritebackOnlyIncrements := by
  intro s
  refine ⟨State.writeback_of_ne_inc, fun hinc => ⟨s.writeback, rfl, ?_, fun a => ?_⟩⟩
  · rw [State.writeback_inc hinc]
    rfl
  · exact State.byteAt_of_write (by rw [State.writeback_inc hinc]; rfl) a

/-- Settles O38: stage 5 is interrupt service and the return to FETCH, and service changes three fields. -/
theorem interruptCheckReturnsToFetch : Obligations.InterruptCheckReturnsToFetch := by
  intro s
  rw [State.interruptCheck_frame, show s.serviceInterrupt.queue = s.queue.tail by rw [State.serviceInterrupt_eq]]

end Sys2Proof.Machine
end

/-! # The Clock and the schedule (R130 to R135) -/

section

namespace Sys2Proof.Machine

/-! ## Listeners and the tick -/

theorem State.addListener_some {c : Component} {l : Listener} (h : c.listener = some l) (s : State) :
    s.addListener c = { s with listeners := s.listeners ++ [l] } := by
  simp only [State.addListener, h]

theorem State.addListener_none {c : Component} (h : c.listener = none) (s : State) :
    s.addListener c = { s with log := s.log ++ [.rejectedListener c] } := by
  simp only [State.addListener, h]

theorem State.tick_stopped {s : State} (h : s.running = false) : s.tick = .next s := by
  rw [State.tick, h]
  rfl

theorem State.tick_running {s : State} (h : s.running = true) : s.tick = State.pulseAll s.listeners s := by
  rw [State.tick, h]
  rfl

theorem State.not_ready_of_stopped {s : State} (h : s.running = false) : ¬ s.ready = true := by
  intro hready
  obtain ⟨hlive, -⟩ := (State.ready_iff s).1 hready
  obtain ⟨hrun, -⟩ := (State.live_iff s).1 hlive
  exact Bool.false_ne_true (h.symm.trans hrun)

/-- A round of pulses after an outcome is one CPU pulse for each time the CPU stands in the list; the pulses of the other
listeners leave the outcome as it is (R84, R268). -/
theorem andThen_pulseAll (ls : List Listener) (o : Host.Outcome State Fault Refusal) :
    andThen o (State.pulseAll ls) = (fun o => andThen o State.cpuPulse)^[ls.count .cpu] o := by
  induction ls generalizing o with
  | nil => exact andThen_next_right o
  | cons l rest ih =>
    have hround : andThen o (State.pulseAll (l :: rest)) = andThen (andThen o (·.pulse l)) (State.pulseAll rest) :=
      (andThen_assoc o (·.pulse l) (State.pulseAll rest)).symm
    rw [hround, ih]
    cases l with
    | cpu =>
      rw [List.count_cons_self, Function.iterate_succ_apply]
      rfl
    | memory | controller =>
      rw [List.count_cons_of_ne (by decide)]
      exact congrArg _ (andThen_next_right o)

/-! ## The schedule -/

theorem step_of_not_ready {s : State} (hin : s.inputs = []) (hready : ¬ s.ready = true) : step s = s.tick := by
  simp only [step, hin, if_neg hready]

theorem step_of_scheduled {s : State} {slot : List Action} {rest : List (List Action)}
    (hin : s.inputs = slot :: rest) : step s = andThen (State.actAll slot { s with inputs := rest }) State.tick := by
  simp only [step, hin]

/-! ## The obligations -/

/-- Settles O42: once the actions have led to a state, the rest of the step is that state's tick. -/
theorem scheduledActionsPrecedeOneTick : Obligations.ScheduledActionsPrecedeOneTick := by
  intro s u slot rest hin hact
  rw [step_of_scheduled hin, hact, andThen_next]

/-- Settles O53: `addListener` asks only whether the component has a pulse operation, and three components have one. -/
theorem listenerNeedsPulse : Obligations.ListenerNeedsPulse := by
  intro s c
  refine ⟨fun _ hl => State.addListener_some hl s, fun hc => State.addListener_none hc s, ?_⟩
  cases c <;> simp [Component.listener]

/-- Settles O54: `start` and `stop` write one flag, so writing what it holds changes nothing, and a Clock that does not run
makes the machine neither ready nor pulsed. -/
theorem startAndStopAreGuarded : Obligations.StartAndStopAreGuarded := by
  intro s
  have hset : ∀ {b : Bool}, s.running = b → { s with running := b } = s := by rintro _ rfl; rfl
  refine ⟨rfl, rfl, hset, hset, State.tick_stopped, fun hstop hin => ?_⟩
  rw [step_of_not_ready hin (State.not_ready_of_stopped hstop), State.tick_stopped hstop]

/-- Settles O55: a tick is one round of pulses from the state itself. -/
theorem tickPulsesEveryListenerOnce : Obligations.TickPulsesEveryListenerOnce := by
  intro s hrun
  rw [State.tick_running hrun, ← andThen_pulseAll, andThen_next]

end Sys2Proof.Machine
end

/-! # A whole instruction is a run of ticks (R151, R330) -/

section

namespace Sys2Proof.Machine

/-! ## The bytes at pc -/

/-- At an instruction the bytes at pc are its encoding, and its form is the one whose length stage 2 finds (R107). -/
theorem State.atInstr_bytes {s : State} {i : Instr} (h : s.atInstr i) :
    s.ready = true ∧ (∃ rest, s.bytesAtPc = encode i ++ rest) ∧ lengthOf i.opcode.byte s.xReg = some i.length := by
  obtain ⟨hready, rest, hdecode⟩ := h
  obtain ⟨hbytes, hlen⟩ := decode_eq_ok_iff.1 hdecode
  exact ⟨hready, ⟨rest, hbytes⟩, hlen⟩

theorem State.byteAt_pc_of_atInstr {s : State} {i : Instr} (h : s.atInstr i) :
    s.byteAt (fetchAddr s.pc) = i.opcode.byte := by
  obtain ⟨-, ⟨rest, hbytes⟩, -⟩ := State.atInstr_bytes h
  exact (List.cons.inj hbytes).1

theorem State.byteAt_operand_of_atInstr {s : State} {i : Instr} (h : s.atInstr i) {b : Byte} (hb : i.operands = [b]) :
    s.byteAt (fetchAddr (s.pc + 1)) = b := by
  obtain ⟨-, ⟨rest, hbytes⟩, -⟩ := State.atInstr_bytes h
  rw [encode, hb] at hbytes
  exact (List.cons.inj (List.cons.inj hbytes).2).1

theorem State.byteAt_operands_of_atInstr {s : State} {i : Instr} (h : s.atInstr i) {hi lo : Byte}
    (hb : i.operands = [hi, lo]) :
    s.byteAt (fetchAddr (s.pc + 1)) = hi ∧ s.byteAt (fetchAddr (s.pc + 2)) = lo := by
  obtain ⟨-, ⟨rest, hbytes⟩, -⟩ := State.atInstr_bytes h
  rw [encode, hb] at hbytes
  obtain ⟨hhi, htail⟩ := List.cons.inj (List.cons.inj hbytes).2
  exact ⟨hhi, (List.cons.inj htail).1⟩

/-- SYS is decoded in its one-byte form only when xReg does not select the other, and in that other form only when it
does (R107). -/
theorem State.xReg_of_atInstr_sys {s : State} (h : s.atInstr .sys) : s.xReg ≠ 2 := by
  obtain ⟨-, -, hlen⟩ := State.atInstr_bytes h
  intro hx
  rw [hx] at hlen
  cases hlen

theorem State.xReg_of_atInstr_sysStr {s : State} {hi lo : Byte} (h : s.atInstr (.sysStr hi lo)) : s.xReg = 2 := by
  obtain ⟨-, -, hlen⟩ := State.atInstr_bytes h
  by_contra hx
  have hone : lengthOf (Opcode.byte .sys) s.xReg = some 1 := by rw [lengthOf_sys, if_neg hx]
  cases hone.symm.trans hlen

/-! ## The work of an instruction, by its format -/

/-- A well-formed instruction is its work and then, unless it has not left stage 3, stages 4 and 5. -/
theorem exec_of_wellFormed {i : Instr} {s : State} (h : i.wellFormed s.xReg = true) :
    exec i s = .next (s.worked i).finish := by
  cases i with
  | adc hi lo => exact execAdc_eq hi lo s
  | sys => exact if_pos (beq_iff_eq.1 h)
  | sysStr hi lo => exact if_pos (beq_iff_eq.1 h)
  | _ => rfl

theorem State.worked_direct {i : Instr} (h : i.operands = []) (s : State) :
    s.worked i = Opcode.lastPass i.opcode (s.issueDirect i.opcode.byte) := by
  cases i with
  | nop | sys | brk => rfl
  | _ => cases h

theorem State.worked_operand {i : Instr} {b : Byte} (h : i.operands = [b]) (s : State) :
    s.worked i = Opcode.lastPass i.opcode (s.issueOperand i.opcode.byte b) := by
  cases i with
  | ldaImm imm | ldxImm imm | ldyImm imm | bne off => cases h; rfl
  | _ => cases h

theorem State.worked_address {i : Instr} (hf : i.opcode.format = .abs) {hi lo : Byte} (h : i.operands = [hi, lo])
    (s : State) : s.worked i = Opcode.lastPass i.opcode (s.issueAddress i.opcode.byte hi lo) := by
  cases i with
  | lda hi lo | sta hi lo | adc hi lo | ldx hi lo | ldy hi lo | cpx hi lo | inc hi lo => cases h; rfl
  | _ => cases hf

/-- The operand bytes of a format, for any instruction that is no SYS. -/
theorem Instr.operands_of_format (i : Instr) :
    (i.opcode.format = .impl ∧ i.operands = []) ∨ (i.opcode.format ∈ [.imm, .rel] ∧ ∃ b, i.operands = [b]) ∨
      (i.opcode.format = .abs ∧ ∃ hi lo, i.operands = [hi, lo]) ∨ i = .sys ∨ ∃ hi lo, i = .sysStr hi lo := by
  cases i with
  | nop | brk => exact .inl ⟨rfl, rfl⟩
  | ldaImm b | ldxImm b | ldyImm b => exact .inr (.inl ⟨List.mem_cons_self, b, rfl⟩)
  | bne b => exact .inr (.inl ⟨List.mem_cons_of_mem _ List.mem_cons_self, b, rfl⟩)
  | sys => exact .inr (.inr (.inr (.inl rfl)))
  | sysStr hi lo => exact .inr (.inr (.inr (.inr ⟨hi, lo, rfl⟩)))
  | lda hi lo | sta hi lo | adc hi lo | ldx hi lo | ldy hi lo | cpx hi lo | inc hi lo =>
    exact .inr (.inr (.inl ⟨rfl, hi, lo, rfl⟩))

/-! ## The ticks of that work -/

theorem State.tick_execute {s : State} (hlive : s.live = true) (hs : s.step = .execute) : s.tick = s.execute := by
  rw [State.tick_live hlive, State.runStage_execute hs]

/-- The course before stage 3 leaves the machine live: it touches neither the Clock nor acc nor `halted`. -/
theorem State.live_issueDirect (s : State) (op : Byte) : (s.issueDirect op).live = s.live :=
  State.live_congr rfl rfl rfl rfl

theorem State.live_issueOperand (s : State) (op b : Byte) : (s.issueOperand op b).live = s.live :=
  State.live_congr rfl rfl rfl rfl

theorem State.live_issueAddress (s : State) (op hi lo : Byte) : (s.issueAddress op hi lo).live = s.live :=
  State.live_congr rfl rfl rfl rfl

theorem State.live_of_ready {s : State} (h : s.ready = true) : s.live = true := by
  obtain ⟨hlive, -, -⟩ := (State.ready_iff s).1 h
  exact hlive

theorem State.stepCounter_of_ready {s : State} (h : s.ready = true) : s.stepCounter = 0 := by
  obtain ⟨-, -, hc⟩ := (State.ready_iff s).1 h
  exact hc

/-- An instruction without operand bytes has done its work after 4 ticks. -/
theorem State.runTicks_worked_direct {s : State} {i : Instr} (h : s.atInstr i) (hf : i.opcode.format = .impl)
    (hb : i.operands = []) (n : Nat) : State.runTicks (n + 4) s = State.runTicks n (s.worked i) := by
  have hlive := (s.live_issueDirect i.opcode.byte).trans (State.live_of_ready h.1)
  have hexec := State.execute_single (s := s.issueDirect i.opcode.byte) (Opcode.ofByte_of_eq rfl) (by simp [hf])
  calc State.runTicks (n + 4) s
    _ = State.runTicks (n + 1) (s.issueDirect i.opcode.byte) :=
      State.runTicks_issueDirect h.1 (State.byteAt_pc_of_atInstr h)
        (fun _ hu _ => State.decodeOperand_impl (Opcode.ofByte_of_eq hu) hf) (n + 1)
    _ = State.runTicks n (s.worked i) := by
      rw [State.runTicks_succ, State.tick_execute hlive rfl, hexec, andThen_next, State.worked_direct hb]

/-- The fourth tick of SYS in its one-byte form is stage 3, which dispatches on xReg (R226). -/
theorem State.runTicks_sys {s : State} (h : s.atInstr .sys) (n : Nat) :
    State.runTicks (n + 4) s = andThen (s.issueDirect 0xFF).passSys (State.runTicks n) := by
  have hlive := (s.live_issueDirect 0xFF).trans (State.live_of_ready h.1)
  have hexec := State.execute_sys (s := s.issueDirect 0xFF) rfl
  have hdirect : ∀ u : State, u.ir = 0xFF → u.xReg = s.xReg → u.decodeOperand = u.setStep .execute := fun u hu hx => by
    rw [State.decodeOperand_sys (Opcode.ofByte_of_eq hu), if_neg (by rw [hx]; exact State.xReg_of_atInstr_sys h)]
  calc State.runTicks (n + 4) s
    _ = State.runTicks (n + 1) (s.issueDirect 0xFF) :=
      State.runTicks_issueDirect h.1 (State.byteAt_pc_of_atInstr h) hdirect (n + 1)
    _ = andThen (s.issueDirect 0xFF).passSys (State.runTicks n) := by
      rw [State.runTicks_succ, State.tick_execute hlive rfl, hexec]

/-- An instruction with one operand byte has done its work after 4 ticks. -/
theorem State.runTicks_worked_operand {s : State} {i : Instr} (h : s.atInstr i) (hf : i.opcode.format ∈ [.imm, .rel])
    {b : Byte} (hb : i.operands = [b]) (n : Nat) : State.runTicks (n + 4) s = State.runTicks n (s.worked i) := by
  have hlive := (s.live_issueOperand i.opcode.byte b).trans (State.live_of_ready h.1)
  have hexec := State.execute_single (s := s.issueOperand i.opcode.byte b) (Opcode.ofByte_of_eq rfl)
    (List.mem_cons_of_mem _ hf)
  have hfetch : i.opcode.format ∈ [.imm, .rel, .abs] := List.mem_append_left [Format.abs] hf
  calc State.runTicks (n + 4) s
    _ = State.runTicks (n + 1) (s.issueOperand i.opcode.byte b) :=
      State.runTicks_issueOperand h.1 (State.byteAt_pc_of_atInstr h) (State.byteAt_operand_of_atInstr h hb)
        (fun _ hu _ => State.decodeOperand_operand (Opcode.ofByte_of_eq hu) hfetch) (n + 1)
    _ = State.runTicks n (s.worked i) := by
      rw [State.runTicks_succ, State.tick_execute hlive rfl, hexec, andThen_next, State.worked_operand hb]

/-- The machine before the sixth tick of an instruction with two address bytes: in stage 3, on its second pass, the low
byte fetched and still to be kept. -/
def State.beforeLow (s : State) (op hi lo : Byte) : State := (s.issueOperand op hi).latchHigh.latchFetch lo

theorem State.latchLow_beforeLow (s : State) (op hi lo : Byte) :
    (s.beforeLow op hi lo).latchLow = s.issueAddress op hi lo := rfl

theorem State.live_beforeLow (s : State) (op hi lo : Byte) : (s.beforeLow op hi lo).live = s.live :=
  State.live_congr rfl rfl rfl rfl

theorem State.stepCounter_beforeLow {s : State} (h : s.ready = true) (op hi lo : Byte) :
    (s.beforeLow op hi lo).stepCounter = 4 := by
  simp [State.beforeLow, State.issueOperand_eq, State.stepCounter_of_ready h]

/-- An instruction with two address bytes has done its work after 6 ticks. -/
theorem State.runTicks_worked_address {s : State} {i : Instr} (h : s.atInstr i) (hf : i.opcode.format = .abs)
    {hi lo : Byte} (hb : i.operands = [hi, lo]) (n : Nat) :
    State.runTicks (n + 6) s = State.runTicks n (s.worked i) := by
  obtain ⟨hhi, hlo⟩ := State.byteAt_operands_of_atInstr h hb
  have hlive := (s.live_beforeLow i.opcode.byte hi lo).trans (State.live_of_ready h.1)
  have hlast : (s.beforeLow i.opcode.byte hi lo).stepCounter ≠ 3 := by
    rw [State.stepCounter_beforeLow h.1]; decide
  have hexec := State.execute_address (s := s.beforeLow i.opcode.byte hi lo) (Opcode.ofByte_of_eq rfl) hf
  have hfirst : ∀ u : State, u.ir = i.opcode.byte → u.xReg = s.xReg → u.stepCounter = 3 →
      u.execute = .next u.latchHigh := fun u hu _ h3 => by
    rw [State.execute_address (Opcode.ofByte_of_eq hu) hf, State.twoPass_first h3]
  calc State.runTicks (n + 6) s
    _ = State.runTicks (n + 1) (s.beforeLow i.opcode.byte hi lo) :=
      State.runTicks_issueAddress h.1 (State.byteAt_pc_of_atInstr h) hhi hlo
        (fun _ hu _ => State.decodeOperand_operand (Opcode.ofByte_of_eq hu) (by simp [hf])) hfirst (n + 1)
    _ = State.runTicks n (s.worked i) := by
      rw [State.runTicks_succ, State.tick_execute hlive rfl, hexec, State.twoPass_last hlast, andThen_next,
        State.latchLow_beforeLow, State.worked_address hf hb]

/-! ## The string loop, tick by tick (R229) -/

theorem State.stringRun_succ (n : Nat) (s : State) :
    s.stringRun (n + 1) = if s.stringPass.step = .writeback then s.stringPass else s.stringPass.stringRun n := rfl

theorem State.live_withLoopFields (s u : State) : (s.withLoopFields u).live = s.live :=
  State.live_congr rfl rfl rfl rfl

theorem State.stringPass_live (s : State) : s.stringPass.live = s.live := by
  rw [State.stringPass_frame, State.live_withLoopFields]

/-- A pass that does not end the loop moves `stepCounter` on, and the machine stays in stage 3. -/
theorem State.stringPass_continues {s : State} (h : s.stringPass.step ≠ .writeback) :
    s.stringPass.step = s.step ∧ s.stringPass.stepCounter = s.stepCounter + 1 := by
  by_cases hb : s.byteAt s.latched = 0
  · rw [State.stringPass_zero hb] at h
    exact absurd rfl h
  · rw [State.stringPass_char hb]
    exact ⟨rfl, rfl⟩

/-- A live machine in the string loop, past the pass that keeps the low byte. -/
structure State.Looping (s : State) : Prop where
  live : s.live = true
  step : s.step = .execute
  ir : s.ir = 0xFF
  xReg : s.xReg = 2
  stepCounter : 5 ≤ s.stepCounter

theorem State.Looping.tick {s : State} (h : s.Looping) : s.tick = .next s.stringPass := by
  have hop : Opcode.ofByte s.ir = some .sys := Opcode.ofByte_of_eq h.ir
  have hc := h.stepCounter
  rw [State.tick_execute h.live h.step, State.execute_sys hop, State.passSys_two h.xReg, State.passSysString,
    if_neg (by omega), if_neg (by omega)]

theorem State.Looping.stringPass {s : State} (h : s.Looping) (hgo : s.stringPass.step ≠ .writeback) :
    s.stringPass.Looping := by
  obtain ⟨hstep, hc⟩ := State.stringPass_continues hgo
  have hframe := State.stringPass_frame s
  exact ⟨(State.stringPass_live _).trans h.live, hstep.trans h.step, (congrArg State.ir hframe).trans h.ir,
    (congrArg State.xReg hframe).trans h.xReg, hc ▸ Nat.le_succ_of_le h.stepCounter⟩

/-- Any number of passes of the loop, cut off at the one that ends it, is a run of ticks. -/
theorem State.Looping.runTicks_stringRun (n : Nat) {s : State} (h : s.Looping) :
    ∃ k, State.runTicks k s = .next (s.stringRun n) := by
  induction n generalizing s with
  | zero => exact ⟨0, rfl⟩
  | succ n ih =>
    by_cases hend : s.stringPass.step = .writeback
    · refine ⟨1, ?_⟩
      rw [State.runTicks_succ, h.tick, State.stringRun_succ, if_pos hend]
      rfl
    · obtain ⟨k, hk⟩ := ih (h.stringPass hend)
      refine ⟨k + 1, ?_⟩
      rw [State.runTicks_succ, h.tick, andThen_next, hk, State.stringRun_succ, if_neg hend]

/-- The sixth tick of the string form keeps the low byte and makes the first pass of the loop. -/
theorem State.runTicks_sysStr {s : State} {hi lo : Byte} (h : s.atInstr (.sysStr hi lo)) (n : Nat) :
    State.runTicks (n + 6) s = State.runTicks n (s.issueAddress 0xFF hi lo).stringPass := by
  have hx := State.xReg_of_atInstr_sysStr h
  obtain ⟨hhi, hlo⟩ := State.byteAt_operands_of_atInstr h rfl
  have hlive := (s.live_beforeLow 0xFF hi lo).trans (State.live_of_ready h.1)
  have hc := State.stepCounter_beforeLow h.1 0xFF hi lo
  have hexec : (s.beforeLow 0xFF hi lo).execute = .next (s.issueAddress 0xFF hi lo).stringPass := by
    rw [State.execute_sys rfl, State.passSys_two (s := s.beforeLow 0xFF hi lo) hx, State.passSysString,
      if_neg (by rw [hc]; decide), if_pos hc, State.latchLow_beforeLow]
  have hfetch : ∀ u : State, u.ir = 0xFF → u.xReg = s.xReg → u.decodeOperand = u.fetchRoutine := fun u hu hux => by
    rw [State.decodeOperand_sys (Opcode.ofByte_of_eq hu), if_pos (hux.trans hx)]
  have hfirst : ∀ u : State, u.ir = 0xFF → u.xReg = s.xReg → u.stepCounter = 3 → u.execute = .next u.latchHigh :=
    fun u hu hux h3 => by
      rw [State.execute_sys (Opcode.ofByte_of_eq hu), State.passSys_two (hux.trans hx), State.passSysString, if_pos h3]
  calc State.runTicks (n + 6) s
    _ = State.runTicks (n + 1) (s.beforeLow 0xFF hi lo) :=
      State.runTicks_issueAddress h.1 (State.byteAt_pc_of_atInstr h) hhi hlo hfetch hfirst (n + 1)
    _ = State.runTicks n (s.issueAddress 0xFF hi lo).stringPass := by
      rw [State.runTicks_succ, State.tick_execute hlive rfl, hexec, andThen_next]

/-- The string form has done its work after some number of ticks: the sixth for the first pass, and one for each pass
after it. -/
theorem State.runTicks_worked_sysStr {s : State} {hi lo : Byte} (h : s.atInstr (.sysStr hi lo)) :
    ∃ k, 1 ≤ k ∧ State.runTicks k s = .next (s.worked (.sysStr hi lo)) := by
  have hwork : s.worked (.sysStr hi lo) = (s.issueAddress 0xFF hi lo).stringRun (65535 + 1) := rfl
  rw [hwork, State.stringRun_succ]
  by_cases hend : (s.issueAddress 0xFF hi lo).stringPass.step = .writeback
  · refine ⟨0 + 6, by decide, ?_⟩
    rw [State.runTicks_sysStr h, if_pos hend, State.runTicks_zero]
  · obtain ⟨hstep, hc⟩ := State.stringPass_continues hend
    have hframe := State.stringPass_frame (s.issueAddress 0xFF hi lo)
    have hx : (s.issueAddress 0xFF hi lo).xReg = 2 := (State.xReg_of_atInstr_sysStr h :)
    have hcount : (s.issueAddress 0xFF hi lo).stepCounter = s.stepCounter + 4 := by rw [State.issueAddress_eq]
    have hloop : (s.issueAddress 0xFF hi lo).stringPass.Looping :=
      ⟨(State.stringPass_live _).trans ((s.live_issueAddress _ _ _).trans (State.live_of_ready h.1)), hstep,
        congrArg State.ir hframe, (congrArg State.xReg hframe).trans hx, by omega⟩
    obtain ⟨k, hk⟩ := hloop.runTicks_stringRun 65535
    refine ⟨k + 6, by omega, ?_⟩
    rw [State.runTicks_sysStr h, if_neg hend, hk]

/-! ## Stages 4 and 5 after that work -/

/-- What is live stays live while the Clock and `halted` stay and acc is in range. -/
theorem State.live_of_acc {s t : State} (h : s.live = true) (hr : t.running = s.running)
    (hl : t.listeners = s.listeners) (hh : t.halted = s.halted) (ha : t.acc.toNat ≤ 0xFF) : t.live = true := by
  obtain ⟨hrun, hlis, hhalt, -⟩ := (State.live_iff s).1 h
  exact (State.live_iff t).2 ⟨hr.trans hrun, (congrArg _ hl).trans hlis, hh.trans hhalt, t.accInRange_iff.2 ha⟩

/-- A pass of stage 3 that leads to stage 4 has not stopped the machine, and acc is in range (R22, R200). -/
theorem Opcode.lastPass_live (op : Opcode) {s : State} (h : s.live = true) (hs : s.step = .execute)
    (hw : (Opcode.lastPass op s).step = .writeback) : (Opcode.lastPass op s).live = true := by
  obtain ⟨-, -, -, hrange⟩ := (State.live_iff s).1 h
  have hacc : s.acc.toNat ≤ 0xFF := s.accInRange_iff.1 hrange
  cases op with
  | ldaImm => exact State.live_of_acc h rfl rfl rfl (byteToAcc_le _)
  | lda =>
    rw [Opcode.lastPass, State.passLda_eq]
    exact State.live_of_acc h rfl rfl rfl (byteToAcc_le _)
  | adc =>
    rw [Opcode.lastPass] at hw ⊢
    cases ho : adcOverflows s.acc (s.byteAt s.latched) with
    | false =>
      have hle : s.acc.toNat + (s.byteAt s.latched).toNat ≤ 0xFF := by simpa [adcOverflows] using ho
      have hsum := adcSum_toNat hacc (s.byteAt s.latched)
      rw [State.passAdc_of_inRange ho]
      exact State.live_of_acc h rfl rfl rfl (hsum.trans_le hle)
    | true =>
      rw [State.passAdc_of_overflow ho] at hw
      cases hs.symm.trans hw
  | brk => cases hs.symm.trans hw
  | _ =>
    simp only [Opcode.lastPass, State.passSta_eq, State.passLdxImm_eq, State.passLdx_eq, State.passLdyImm_eq,
      State.passLdy_eq, State.passCpx_eq, State.passBne_eq, State.passInc_eq, State.passNop_eq, State.passSysInt_eq]
    exact State.live_of_acc h rfl rfl rfl hacc

theorem State.worked_live {s : State} {i : Instr} (h : s.live = true) (hw : (s.worked i).step = .writeback) :
    (s.worked i).live = true := by
  rcases Instr.operands_of_format i with ⟨-, hb⟩ | ⟨-, b, hb⟩ | ⟨hf, hi, lo, hb⟩ | rfl | ⟨hi, lo, rfl⟩
  · rw [State.worked_direct hb] at hw ⊢
    exact Opcode.lastPass_live _ ((s.live_issueDirect _).trans h) rfl hw
  · rw [State.worked_operand hb] at hw ⊢
    exact Opcode.lastPass_live _ ((s.live_issueOperand _ _).trans h) rfl hw
  · rw [State.worked_address hf hb] at hw ⊢
    exact Opcode.lastPass_live _ ((s.live_issueAddress _ _ _).trans h) rfl hw
  · exact (State.live_congr (s := s) rfl rfl rfl rfl).trans h
  · rw [State.worked, State.stringRun_frame _ (by rw [State.issueAddress_eq]; nofun), State.live_withLoopFields]
    exact (s.live_issueAddress _ _ _).trans h

/-- Where stage 3 has led to stage 4, two ticks more finish the instruction; elsewhere nothing is left to do. -/
theorem State.runTicks_finish {u : State} (h : u.step = .writeback → u.live = true) :
    ∃ n, State.runTicks n u = .next u.finish := by
  by_cases hw : u.step = .writeback
  · refine ⟨0 + 2, ?_⟩
    rw [State.runTicks_retire (h hw) hw, State.finish_of_writeback hw, State.runTicks_zero]
  · refine ⟨0, ?_⟩
    rw [State.runTicks_zero, State.finish_of_not_writeback hw]

/-! ## The whole instruction and the step -/

/-- A well-formed instruction has done its work after one or more ticks. -/
theorem State.runTicks_worked {s : State} {i : Instr} (h : s.atInstr i) (hwf : i.wellFormed s.xReg = true) :
    ∃ n, 1 ≤ n ∧ State.runTicks n s = .next (s.worked i) := by
  rcases Instr.operands_of_format i with ⟨hf, hb⟩ | ⟨hf, b, hb⟩ | ⟨hf, hi, lo, hb⟩ | rfl | ⟨hi, lo, rfl⟩
  · exact ⟨0 + 4, by decide, State.runTicks_worked_direct h hf hb 0⟩
  · exact ⟨0 + 4, by decide, State.runTicks_worked_operand h hf hb 0⟩
  · exact ⟨0 + 6, by decide, State.runTicks_worked_address h hf hb 0⟩
  · have hx : (s.issueDirect 0xFF).xReg = 1 := beq_iff_eq.1 hwf
    refine ⟨0 + 4, by decide, ?_⟩
    rw [State.runTicks_sys h, State.passSys_one hx]
    rfl
  · exact State.runTicks_worked_sysStr h

/-- What is decoded and not well formed is SYS under a selector that has no meaning (R107, R232). -/
theorem State.eq_sys_of_not_wellFormed {s : State} {i : Instr} (h : s.atInstr i) (hwf : ¬ i.wellFormed s.xReg = true) :
    i = .sys ∧ s.xReg ≠ 1 := by
  cases i with
  | sys => exact ⟨rfl, fun hx => hwf (beq_iff_eq.2 hx)⟩
  | sysStr hi lo => exact absurd (beq_iff_eq.2 (State.xReg_of_atInstr_sysStr h)) hwf
  | _ => exact absurd rfl hwf

theorem State.exec_eq_runTicks {s : State} {i : Instr} (h : s.atInstr i) :
    ∃ n, 1 ≤ n ∧ exec i s = State.runTicks n s := by
  by_cases hwf : i.wellFormed s.xReg = true
  · obtain ⟨m, hm, hwork⟩ := State.runTicks_worked h hwf
    obtain ⟨k, hk⟩ := State.runTicks_finish (u := s.worked i) (State.worked_live (State.live_of_ready h.1))
    refine ⟨m + k, by omega, ?_⟩
    rw [State.runTicks_add, hwork, andThen_next, hk, exec_of_wellFormed hwf]
  · obtain ⟨rfl, hx⟩ := State.eq_sys_of_not_wellFormed h hwf
    have hother : (s.issueDirect 0xFF).passSys = .refused .sysSelector :=
      State.passSys_other hx (State.xReg_of_atInstr_sys h :)
    refine ⟨0 + 4, by decide, ?_⟩
    rw [State.runTicks_sys h, hother]
    exact if_neg hx

/-- A byte outside the table stops the machine at the third tick (R237). -/
theorem State.runTicks_stopUnknown {s : State} (h : s.ready = true)
    (hop : Opcode.ofByte (s.byteAt (fetchAddr s.pc)) = none) (n : Nat) :
    State.runTicks (n + 3) s = State.runTicks n (s.stopUnknown (s.byteAt (fetchAddr s.pc))) := by
  have hlive : (s.latchFetch (s.byteAt (fetchAddr s.pc))).decodeOpcode.live = true :=
    (State.live_congr (s := s) rfl rfl rfl rfl).trans (State.live_of_ready h)
  rw [show n + 3 = n + 1 + 2 from rfl, State.runTicks_opcode h, State.runTicks_succ, State.tick_live hlive,
    State.runStage_decodeOperand rfl, State.decodeOperand_unknown hop, andThen_next]
  rfl

/-- The byte that the decoder names as unknown is the one at pc. -/
theorem State.byteAt_pc_of_unknown {s : State} {b : Byte} (h : s.decodeNext = .error (.unknownOpcode b)) :
    s.byteAt (fetchAddr s.pc) = b ∧ Opcode.ofByte b = none := by
  refine ⟨?_, ofByte_of_decode_unknown h⟩
  cases hop : Opcode.ofByte (s.byteAt (fetchAddr s.pc)) with
  | none => exact Reject.unknownOpcode.inj (Except.error.inj ((decode_of_unknown hop _ _).symm.trans h))
  | some op =>
    rw [State.decodeNext, State.bytesAtPc, Opcode.byte_of_ofByte hop, decode_byte_cons] at h
    exact absurd h (decodeOperands_ne_unknown _ _ _ _)

theorem State.runInstruction_eq_runTicks {s : State} (h : s.ready = true) :
    ∃ n, 1 ≤ n ∧ s.runInstruction = State.runTicks n s := by
  cases hd : s.decodeNext with
  | ok found =>
    rw [State.runInstruction_of_decodeNext hd]
    exact State.exec_eq_runTicks ⟨h, found.2, hd⟩
  | error why =>
    cases why with
    | unknownOpcode b =>
      obtain ⟨hb, hop⟩ := State.byteAt_pc_of_unknown hd
      refine ⟨0 + 3, by decide, ?_⟩
      rw [State.runTicks_stopUnknown h (hb ▸ hop), hb, State.runTicks_zero]
      simp only [State.runInstruction, hd]
    | truncated op =>
      refine ⟨1, Nat.le_refl 1, ?_⟩
      have htick : s.runInstruction = s.tick := by simp only [State.runInstruction, hd]
      rw [htick]
      exact (andThen_next_right s.tick).symm

/-- Settles O41: from a boundary a step is a whole instruction, and that is the ticks of its work and of stages 4 and 5;
from anywhere else it is one tick. -/
theorem stepIsARunOfTicks : Obligations.StepIsARunOfTicks := by
  intro s hin
  by_cases hready : s.ready = true
  · rw [step_of_ready hin hready]
    exact State.runInstruction_eq_runTicks hready
  · refine ⟨1, Nat.le_refl 1, ?_⟩
    rw [step_of_not_ready hin hready]
    exact (andThen_next_right s.tick).symm

end Sys2Proof.Machine
end

/-! # What can be refused (R145, R22, R232, U22) -/

section

namespace Sys2Proof.Machine

/-- A chain is refused by its first part or by what follows it. -/
theorem andThen_eq_refused {o : Host.Outcome State Fault Refusal} {f : State → Host.Outcome State Fault Refusal}
    {r : Refusal} : andThen o f = .refused r ↔ o = .refused r ∨ ∃ u, o = .next u ∧ f u = .refused r := by
  cases o <;> simp [andThen]

/-! ## Stages -/

theorem Opcode.format_eq_sys {op : Opcode} (h : op.format = .sys) : op = .sys := by
  revert h
  cases op <;> decide

theorem State.passSys_refused {s : State} {r : Refusal} (h : s.passSys = .refused r) : r = .sysSelector := by
  by_cases h1 : s.xReg = 1
  · cases (State.passSys_one h1).symm.trans h
  · by_cases h2 : s.xReg = 2
    · cases (State.passSys_two h2).symm.trans h
    · cases (State.passSys_other h1 h2).symm.trans h
      rfl

/-- Stage 3 refuses a byte outside the table and, for SYS, a selector without a meaning. -/
theorem State.execute_refused {s : State} {r : Refusal} (h : s.execute = .refused r) :
    Opcode.ofByte s.ir = none ∨ r = .sysSelector := by
  cases hop : Opcode.ofByte s.ir with
  | none => exact .inl rfl
  | some op =>
    cases hf : op.format with
    | abs => cases (State.execute_address hop hf).symm.trans h
    | impl | imm | rel => cases (State.execute_single hop (by simp [hf])).symm.trans h
    | sys =>
      obtain rfl : op = .sys := Opcode.format_eq_sys hf
      exact .inr (State.passSys_refused ((State.execute_sys hop).symm.trans h))

/-- Of the six stages only stage 3 refuses anything. -/
theorem State.runStage_refused {s : State} {r : Refusal} (h : s.runStage = .refused r) :
    s.step = .execute ∧ s.execute = .refused r := by
  cases hs : s.step with
  | execute => exact ⟨rfl, (State.runStage_execute hs).symm.trans h⟩
  | fetch => cases (State.runStage_fetch hs).symm.trans h
  | decodeOpcode => cases (State.runStage_decodeOpcode hs).symm.trans h
  | decodeOperand => cases (State.runStage_decodeOperand hs).symm.trans h
  | writeback => cases (State.runStage_writeback hs).symm.trans h
  | interruptCheck => cases (State.runStage_interruptCheck hs).symm.trans h

/-! ## Pulses, actions and the step from a state with the invariant -/

/-- In stage 3 ir is a byte of the table (R145). -/
theorem State.Inv.ofByte_of_execute {s : State} (h : s.Inv) (hs : s.step = .execute) : Opcode.ofByte s.ir ≠ none := by
  intro hop
  have hcount : s.executeCounter = true := State.controlOk_execute hs ▸ h.control
  simp [State.executeCounter, hop] at hcount

/-- Without a stop acc is in range, and stage 3 knows the opcode, so what is left is SYS. -/
theorem State.Inv.cpuPulse_refused {s : State} {r : Refusal} (h : s.Inv) (hr : s.cpuPulse = .refused r) :
    r = .sysSelector := by
  cases hhalt : s.halted with
  | some why => cases (State.cpuPulse_halted (by rw [hhalt]; rfl)).symm.trans hr
  | none =>
    obtain ⟨-, hacc, -⟩ := h.going hhalt
    have hstage : s.runStage = .refused r := (State.cpuPulse_running hhalt (s.accInRange_iff.2 hacc)).symm.trans hr
    obtain ⟨hs, hexec⟩ := State.runStage_refused hstage
    exact (State.execute_refused hexec).resolve_left (h.ofByte_of_execute hs)

theorem State.Inv.pulseAll_refused {ls : List Listener} {s : State} {r : Refusal} (h : s.Inv)
    (hr : State.pulseAll ls s = .refused r) : r = .sysSelector := by
  induction ls generalizing s with
  | nil => cases hr
  | cons l rest ih =>
    cases l with
    | cpu =>
      rcases andThen_eq_refused.1 hr with hpulse | ⟨u, hu, hrest⟩
      · exact h.cpuPulse_refused hpulse
      · exact ih (h.cpuPulse hu) hrest
    | memory | controller => exact ih h hr

theorem State.Inv.tick_refused {s : State} {r : Refusal} (h : s.Inv) (hr : s.tick = .refused r) : r = .sysSelector := by
  cases hrun : s.running with
  | false => cases (State.tick_stopped hrun).symm.trans hr
  | true => exact h.pulseAll_refused ((State.tick_running hrun).symm.trans hr)

/-- Of the actions from outside only a round of pulses by hand can be refused (R289). -/
theorem State.Inv.act_refused {s : State} {a : Action} {r : Refusal} (h : s.Inv) (hr : s.act a = .refused r) :
    r = .sysSelector := by
  cases a with
  | sendPulse => exact h.pulseAll_refused hr
  | _ => cases hr

theorem State.Inv.actAll_refused {as : List Action} {s : State} {r : Refusal} (h : s.Inv)
    (hr : State.actAll as s = .refused r) : r = .sysSelector := by
  induction as generalizing s with
  | nil => cases hr
  | cons a rest ih =>
    rcases andThen_eq_refused.1 hr with hact | ⟨u, hu, hrest⟩
    · exact h.act_refused hact
    · exact ih (h.act hu) hrest

theorem State.Inv.runTicks_refused {n : Nat} {s : State} {r : Refusal} (h : s.Inv)
    (hr : State.runTicks n s = .refused r) : r = .sysSelector := by
  induction n generalizing s with
  | zero => cases hr
  | succ n ih =>
    rcases andThen_eq_refused.1 hr with htick | ⟨u, hu, hrest⟩
    · exact h.tick_refused htick
    · exact ih (h.tick hu) hrest

/-- Settles O4: with nothing scheduled a step is a run of ticks (O41), else it is actions and a tick; the invariant holds
all along, and under it each pulse refuses nothing but SYS under a selector that has no meaning. -/
theorem onlySelectorIsRefused : Obligations.OnlySelectorIsRefused := by
  intro s r h hr
  cases hin : s.inputs with
  | nil =>
    obtain ⟨n, -, hticks⟩ := stepIsARunOfTicks s hin
    exact h.runTicks_refused (hticks.symm.trans hr)
  | cons slot rest =>
    rcases andThen_eq_refused.1 ((step_of_scheduled hin).symm.trans hr) with hact | ⟨u, hu, htick⟩
    · exact (h.setInputs rest).actAll_refused hact
    · exact ((h.setInputs rest).actAll hu).tick_refused htick

end Sys2Proof.Machine
end

/-! # Device actions and pulses commute outside stage 5 (R135, R152, R270) -/

section

namespace Sys2Proof.Machine

/-- `s` with what device actions read and write, the controller's and the devices' fields, as `u` has them (R257, R258,
R263). -/
def State.withController (s u : State) : State :=
  { s with queue := u.queue, devices := u.devices, controllerDebug := u.controllerDebug, deviceTable := u.deviceTable }

theorem State.withController_self (s : State) : s.withController s = s := rfl

/-! ## Device actions -/

/-- What a device action does to the controller's fields, it does by these alone, and it leaves the others as they are. -/
theorem State.act_withController {a : Action} (h : a.ofDevice = true) (s : State) :
    ∃ u, s.act a = .next u ∧ ∀ t : State, (t.withController s).act a = .next (t.withController u) := by
  have hget : ∀ (t : State) (d : Nat), (t.withController s).deviceTable[d]? = s.deviceTable[d]? := fun _ _ => rfl
  cases a with
  | pushInput d v | pushOutput d v =>
    refine ⟨_, rfl, fun t => congrArg Host.Outcome.next ?_⟩
    simp only [State.push, hget]
    cases s.deviceTable[d]? <;> rfl
  | acceptInterrupt d =>
    refine ⟨_, rfl, fun t => congrArg Host.Outcome.next ?_⟩
    simp only [State.acceptInterrupt, hget]
    cases s.deviceTable[d]? <;> rfl
  | addDevice d =>
    refine ⟨_, rfl, fun t => congrArg Host.Outcome.next ?_⟩
    simp only [State.addDevice, hget]
    cases s.deviceTable[d]? <;> rfl
  | createDevice name irq priority => exact ⟨_, rfl, fun _ => rfl⟩
  | _ => cases h

/-! ## The stages before stage 5 -/

theorem State.decodeOperand_withController (s u : State) :
    (s.withController u).decodeOperand = s.decodeOperand.withController u := by
  have hir : (s.withController u).ir = s.ir := rfl
  cases hop : Opcode.ofByte s.ir with
  | none => rw [State.decodeOperand_unknown hop, State.decodeOperand_unknown (hir ▸ hop)]; rfl
  | some op =>
    cases hf : op.format with
    | impl => rw [State.decodeOperand_impl hop hf, State.decodeOperand_impl (hir ▸ hop) hf]; rfl
    | imm | rel | abs =>
      rw [State.decodeOperand_operand hop (by simp [hf]), State.decodeOperand_operand (hir ▸ hop) (by simp [hf])]; rfl
    | sys =>
      obtain rfl : op = .sys := Opcode.format_eq_sys hf
      rw [State.decodeOperand_sys hop, State.decodeOperand_sys (hir ▸ hop), apply_ite (State.withController · u)]
      rfl

theorem Opcode.lastPass_withController (op : Opcode) (s u : State) :
    Opcode.lastPass op (s.withController u) = (Opcode.lastPass op s).withController u := by
  cases op with
  | adc =>
    rw [Opcode.lastPass]
    have hbyte : (s.withController u).byteAt (s.withController u).latched = s.byteAt s.latched := rfl
    have hacc : (s.withController u).acc = s.acc := rfl
    cases ho : adcOverflows s.acc (s.byteAt s.latched) with
    | false => rw [State.passAdc_of_inRange ho, State.passAdc_of_inRange (by rw [hacc, hbyte, ho])]; rfl
    | true => rw [State.passAdc_of_overflow ho, State.passAdc_of_overflow (by rw [hacc, hbyte, ho])]; rfl
  | _ => rfl

theorem State.stringPass_withController (s u : State) :
    (s.withController u).stringPass = s.stringPass.withController u := by
  have hbyte : (s.withController u).byteAt (s.withController u).latched = s.byteAt s.latched := rfl
  by_cases hb : s.byteAt s.latched = 0
  · rw [State.stringPass_zero hb, State.stringPass_zero (hbyte.trans hb)]; rfl
  · rw [State.stringPass_char hb, State.stringPass_char (by rwa [hbyte])]; rfl

theorem State.passSysString_withController (s u : State) :
    (s.withController u).passSysString = s.passSysString.withController u := by
  simp only [State.passSysString, apply_ite (State.withController · u), ← State.stringPass_withController]
  rfl

theorem State.passSys_withController (s u : State) :
    (s.withController u).passSys = mapNext (State.withController · u) s.passSys := by
  by_cases h1 : s.xReg = 1
  · rw [State.passSys_one h1, State.passSys_one (s := s.withController u) h1]; rfl
  · by_cases h2 : s.xReg = 2
    · rw [State.passSys_two h2, State.passSys_two (s := s.withController u) h2, State.passSysString_withController]; rfl
    · rw [State.passSys_other h1 h2, State.passSys_other (s := s.withController u) h1 h2]; rfl

theorem State.twoPass_withController (op : Opcode) (s u : State) :
    (s.withController u).twoPass (Opcode.lastPass op) = (s.twoPass (Opcode.lastPass op)).withController u := by
  by_cases h3 : s.stepCounter = 3
  · rw [State.twoPass_first h3, State.twoPass_first (s := s.withController u) h3]; rfl
  · rw [State.twoPass_last h3, State.twoPass_last (s := s.withController u) h3, ← Opcode.lastPass_withController]; rfl

theorem State.execute_withController (s u : State) :
    (s.withController u).execute = mapNext (State.withController · u) s.execute := by
  have hir : (s.withController u).ir = s.ir := rfl
  cases hop : Opcode.ofByte s.ir with
  | none => rw [State.execute_unknown hop, State.execute_unknown (hir ▸ hop)]; rfl
  | some op =>
    cases hf : op.format with
    | abs =>
      rw [State.execute_address hop hf, State.execute_address (hir ▸ hop) hf, State.twoPass_withController]; rfl
    | impl | imm | rel =>
      rw [State.execute_single hop (by simp [hf]), State.execute_single (hir ▸ hop) (by simp [hf]),
        Opcode.lastPass_withController]
      rfl
    | sys =>
      obtain rfl : op = .sys := Opcode.format_eq_sys hf
      rw [State.execute_sys hop, State.execute_sys (hir ▸ hop), State.passSys_withController]

theorem State.writeback_withController (s u : State) :
    (s.withController u).writeback = s.writeback.withController u := by
  have hir : (s.withController u).ir = s.ir := rfl
  by_cases hinc : s.ir = 0xEE
  · rw [State.writeback_inc hinc, State.writeback_inc (hir.trans hinc)]; rfl
  · rw [State.writeback_of_ne_inc hinc, State.writeback_of_ne_inc (by rwa [hir])]; rfl

theorem State.runStage_withController {s : State} (hs : s.step ≠ .interruptCheck) (u : State) :
    (s.withController u).runStage = mapNext (State.withController · u) s.runStage := by
  have hstep : (s.withController u).step = s.step := rfl
  cases h : s.step with
  | fetch => rw [State.runStage_fetch h, State.runStage_fetch (hstep.trans h)]; rfl
  | decodeOpcode => rw [State.runStage_decodeOpcode h, State.runStage_decodeOpcode (hstep.trans h)]; rfl
  | decodeOperand =>
    rw [State.runStage_decodeOperand h, State.runStage_decodeOperand (hstep.trans h), State.decodeOperand_withController]
    rfl
  | execute => rw [State.runStage_execute h, State.runStage_execute (hstep.trans h), State.execute_withController]
  | writeback =>
    rw [State.runStage_writeback h, State.runStage_writeback (hstep.trans h), State.writeback_withController]
    rfl
  | interruptCheck => exact absurd h hs

/-- Outside stage 5 a pulse neither reads nor writes the controller's fields. -/
theorem State.cpuPulse_withController {s : State} (hs : s.step ≠ .interruptCheck) (u : State) :
    (s.withController u).cpuPulse = mapNext (State.withController · u) s.cpuPulse := by
  have hhalt : (s.withController u).halted = s.halted := rfl
  have hacc : (s.withController u).accInRange = s.accInRange := rfl
  simp only [State.cpuPulse, hhalt, hacc, State.runStage_withController hs,
    apply_ite (mapNext (State.withController · u))]
  rfl

/-- Settles O50: a device action works on the controller's fields alone, and outside stage 5 a pulse works on the others
alone. -/
theorem deviceActionsCommuteWithPulses : Obligations.DeviceActionsCommuteWithPulses := by
  intro s a ha hs
  obtain ⟨u, hu, hact⟩ := State.act_withController ha s
  have hpulse : ∀ v : State, (s.withController v).cpuPulse = mapNext (State.withController · v) s.cpuPulse :=
    State.cpuPulse_withController hs
  have hchanged : u = s.withController u := Host.Outcome.next.inj (hu.symm.trans (hact s))
  rw [hu, andThen_next, hchanged, hpulse]
  cases hp : s.cpuPulse with
  | next t =>
    have hkept : t = t.withController s := by
      have := hpulse s
      rw [State.withController_self, hp] at this
      exact Host.Outcome.next.inj this
    rw [andThen_next, hkept, hact]
    rfl
  | fault r => rfl
  | refused r => rfl

end Sys2Proof.Machine
end

/-! # Loads and stores (41_loads_and_stores) -/

section

namespace Sys2Proof.Machine

/-! ## An instruction that goes through all six stages -/

/-- An instruction whose work leads to stage 4 is that work and then stage 5: stage 4 does nothing except for INC
(R148, R149). -/
theorem exec_of_writeback {i : Instr} {s : State} (hwf : i.wellFormed s.xReg = true) (hinc : i.opcode ≠ .inc)
    (hw : (s.worked i).step = .writeback) :
    exec i s = .next (State.serviceInterrupt { s.worked i with step := .fetch, stepCounter := 0 }) := by
  have hir : (s.worked i).ir ≠ 0xEE := by
    rw [State.worked_ir]
    exact Opcode.byte_ne_inc hinc
  rw [exec_of_wellFormed hwf, State.finish_of_writeback hw, State.retire_eq hir]

/-- Two ticks more take the work of an instruction at pc to its end. -/
theorem State.runTicks_of_worked {s : State} {i : Instr} (h : s.atInstr i) (hsys : i.opcode ≠ .sys)
    (hw : (s.worked i).step = .writeback) : State.runTicks 2 (s.worked i) = exec i s := by
  have hwf : i.wellFormed s.xReg = true := by
    by_contra hbad
    obtain ⟨rfl, -⟩ := State.eq_sys_of_not_wellFormed h hbad
    exact hsys rfl
  rw [State.runTicks_retire (State.worked_live (State.live_of_ready h.1) hw) hw 0, State.runTicks_zero,
    exec_of_wellFormed hwf, State.finish_of_writeback hw]

/-- An instruction with one operand byte takes 6 pulses (R151). -/
theorem State.runTicks_operand {s : State} {i : Instr} (h : s.atInstr i) (hf : i.opcode.format ∈ [.imm, .rel])
    {b : Byte} (hb : i.operands = [b]) (hw : (s.worked i).step = .writeback) : State.runTicks 6 s = exec i s := by
  have hsys : i.opcode ≠ .sys := fun e => by simp [e, Opcode.format] at hf
  rw [State.runTicks_worked_operand h hf hb 2, State.runTicks_of_worked h hsys hw]

/-- An instruction with two address bytes that does not stop takes 8 pulses (R151). -/
theorem State.runTicks_address {s : State} {i : Instr} (h : s.atInstr i) (hf : i.opcode.format = .abs)
    {hi lo : Byte} (hb : i.operands = [hi, lo]) (hw : (s.worked i).step = .writeback) :
    State.runTicks 8 s = exec i s := by
  have hsys : i.opcode ≠ .sys := fun e => by simp [e, Opcode.format] at hf
  rw [State.runTicks_worked_address h hf hb 2, State.runTicks_of_worked h hsys hw]

/-! ## STA -/

/-- STA as a whole next state: the array is the old one with `acc[7:0]` stored at `hi:lo` (R182). -/
theorem exec_sta (s : State) (hi lo : Byte) :
    exec (.sta hi lo) s = .next (State.serviceInterrupt
      { s with mem := Memory.write s.mem (cellIndex (pairAddr hi lo)).toNat s.accByte, pc := s.pc + 3, ir := 0x8D,
               opp := lo, irx := hi, iry := lo, mar := pairAddr hi lo, mdr := s.accByte, step := .fetch,
               stepCounter := 0 }) := by
  rw [exec_of_writeback (i := .sta hi lo) rfl nofun rfl, State.worked, State.passSta_eq, State.issueAddress_eq]
  rfl

/-! ## The obligations -/

/-- Settles O16: the operand fetch leaves the constant in opp, and stage 3 copies it from there. -/
theorem loadConstantResult : Obligations.LoadConstantResult := by
  intro s imm
  refine ⟨?_, ?_, ?_, fun h => State.runTicks_operand h List.mem_cons_self rfl rfl,
    fun h => State.runTicks_operand h List.mem_cons_self rfl rfl,
    fun h => State.runTicks_operand h List.mem_cons_self rfl rfl⟩
  · rw [exec_of_writeback (i := .ldaImm imm) rfl nofun rfl, State.worked, State.passLdaImm_eq, State.issueOperand_eq]
    rfl
  · rw [exec_of_writeback (i := .ldxImm imm) rfl nofun rfl, State.worked, State.passLdxImm_eq, State.issueOperand_eq]
  · rw [exec_of_writeback (i := .ldyImm imm) rfl nofun rfl, State.worked, State.passLdyImm_eq, State.issueOperand_eq]

/-- Settles O17: both address bytes are in the latches at the second pass of stage 3, which reads the byte there. -/
theorem loadMemoryResult : Obligations.LoadMemoryResult := by
  intro s hi lo
  refine ⟨?_, ?_, ?_, fun h => State.runTicks_address h rfl rfl rfl, fun h => State.runTicks_address h rfl rfl rfl,
    fun h => State.runTicks_address h rfl rfl rfl⟩
  · rw [exec_of_writeback (i := .lda hi lo) rfl nofun rfl, State.worked, State.passLda_eq, State.issueAddress_eq]
    rfl
  · rw [exec_of_writeback (i := .ldx hi lo) rfl nofun rfl, State.worked, State.passLdx_eq, State.issueAddress_eq]
    rfl
  · rw [exec_of_writeback (i := .ldy hi lo) rfl nofun rfl, State.worked, State.passLdy_eq, State.issueAddress_eq]
    rfl

/-- Settles O18: the array after STA is the old one with one byte written, and no other address reaches that cell. -/
theorem storeAccumulatorResult : Obligations.StoreAccumulatorResult := by
  intro s hi lo
  refine ⟨?_, fun h => State.runTicks_address h rfl rfl rfl⟩
  obtain ⟨t, ht, hmem⟩ := exec_sta_mem hi lo s
  have hbyte := State.byteAt_of_write hmem
  refine ⟨t, ht, ?_, (hbyte _).trans (if_pos rfl), fun a ha => (hbyte a).trans (if_neg ha)⟩
  rw [hmem]
  exact Host.Outcome.next.inj (ht.symm.trans (exec_sta s hi lo))

end Sys2Proof.Machine
end

/-! # Arithmetic, compare and increment (42_arithmetic_and_compare) -/

section

namespace Sys2Proof.Machine

/-! ## ADC -/

theorem adcOverflows_eq_true_iff {acc : AccWord} {m : Byte} :
    adcOverflows acc m = true ↔ 0xFF < acc.toNat + m.toNat :=
  decide_eq_true_iff

theorem adcOverflows_eq_false_iff {acc : AccWord} {m : Byte} :
    adcOverflows acc m = false ↔ acc.toNat + m.toNat ≤ 0xFF :=
  decide_eq_false_iff_not.trans Nat.not_lt

theorem adcSum_eq_ofNat {acc : AccWord} (h : acc.toNat ≤ 0xFF) (m : Byte) :
    adcSum acc m = BitVec.ofNat 9 (acc.toNat + m.toNat) := by
  rw [← adcSum_toNat h m, BitVec.ofNat_toNat, BitVec.setWidth_eq]

/-- The work of an ADC whose sum is in range leads to stage 4. -/
theorem State.worked_adc_of_inRange {s : State} {hi lo : Byte}
    (h : adcOverflows s.acc (s.byteAt (pairAddr hi lo)) = false) :
    s.worked (.adc hi lo) =
      { s with acc := adcSum s.acc (s.byteAt (pairAddr hi lo)), pc := s.pc + 3, ir := 0x6D, opp := lo, irx := hi,
               iry := lo, mar := pairAddr hi lo, mdr := s.byteAt (pairAddr hi lo), step := .writeback,
               stepCounter := s.stepCounter + 4 } := by
  rw [State.worked, State.issueAddress_eq, State.passAdc_of_inRange h]
  rfl

/-- An ADC whose sum exceeds 0xFF stops in stage 3, with `stepCounter` as its second pass found it (R200, D6). -/
theorem State.worked_adc_of_overflow {s : State} {hi lo : Byte}
    (h : adcOverflows s.acc (s.byteAt (pairAddr hi lo)) = true) :
    s.worked (.adc hi lo) =
      { s with acc := adcSum s.acc (s.byteAt (pairAddr hi lo)), pc := s.pc + 3, ir := 0x6D, opp := lo, irx := hi,
               iry := lo, mar := pairAddr hi lo, mdr := s.byteAt (pairAddr hi lo), step := .execute,
               stepCounter := s.stepCounter + 4, halted := some .accOverflow, stopCalls := s.stopCalls + 1 } := by
  rw [State.worked, State.issueAddress_eq, State.passAdc_of_overflow h]
  rfl

/-- An instruction with two address bytes that does not leave stage 3 takes 6 pulses: nothing comes after its work
(R150). -/
theorem State.runTicks_address_stopped {s : State} {i : Instr} (h : s.atInstr i) (hf : i.opcode.format = .abs)
    {hi lo : Byte} (hb : i.operands = [hi, lo]) (hexec : exec i s = .next (s.worked i)) :
    State.runTicks 6 s = exec i s := by
  rw [State.runTicks_worked_address h hf hb 0, State.runTicks_zero, hexec]

/-- An ADC whose sum exceeds 0xFF is its work and nothing more: stages 4 and 5 are not reached. -/
theorem exec_adc_of_overflow {s : State} {hi lo : Byte}
    (h : adcOverflows s.acc (s.byteAt (pairAddr hi lo)) = true) :
    exec (.adc hi lo) s = .next (s.worked (.adc hi lo)) := by
  have hstep : (s.worked (.adc hi lo)).step ≠ .writeback := by
    rw [State.worked_adc_of_overflow h]
    nofun
  rw [exec_of_wellFormed rfl, State.finish_of_not_writeback hstep]

/-! ## INC -/

/-- INC as a whole next state: stage 4 stores one more than the byte at `hi:lo` there (R203). -/
theorem exec_inc (s : State) (hi lo : Byte) :
    exec (.inc hi lo) s = .next (State.serviceInterrupt
      { s with mem := Memory.write s.mem (cellIndex (pairAddr hi lo)).toNat (s.byteAt (pairAddr hi lo) + 1),
               pc := s.pc + 3, ir := 0xEE, opp := lo, irx := hi, iry := lo, mar := pairAddr hi lo,
               mdr := s.byteAt (pairAddr hi lo) + 1, step := .fetch, stepCounter := 0 }) := by
  have hir : (s.worked (.inc hi lo)).ir = 0xEE := State.worked_ir s _
  rw [exec_of_wellFormed rfl, State.finish_of_writeback rfl, State.retire_inc hir, State.worked, State.passInc_eq,
    State.issueAddress_eq]
  rfl

theorem State.serviceInterrupt_mem (s : State) : s.serviceInterrupt.mem = s.mem := by
  rw [State.serviceInterrupt_eq]

/-! ## The obligations -/

/-- Settles O19: acc is at most 0xFF, so the nine bits hold the sum, and whether it exceeds 0xFF decides whether stage 3
leads on to stage 4 or stops. -/
theorem addResult : Obligations.AddResult := by
  intro s hi lo hacc
  refine ⟨fun hle => ?_, fun hlt => ?_⟩
  · have hwork := State.worked_adc_of_inRange (adcOverflows_eq_false_iff.2 hle)
    have hstep : (s.worked (.adc hi lo)).step = .writeback := by rw [hwork]
    refine ⟨?_, fun h => State.runTicks_address h rfl rfl hstep⟩
    rw [exec_of_writeback (i := .adc hi lo) rfl nofun hstep, hwork, adcSum_eq_ofNat hacc]
  · have ho := adcOverflows_eq_true_iff.2 hlt
    have hexec := exec_adc_of_overflow ho
    have hwork := State.worked_adc_of_overflow ho
    have hsum : (s.worked (.adc hi lo)).acc.toNat = s.acc.toNat + (s.byteAt (pairAddr hi lo)).toNat := by
      rw [hwork]
      exact adcSum_toNat hacc _
    refine ⟨⟨_, hexec, hsum, ?_⟩, fun h => State.runTicks_address_stopped h rfl rfl hexec⟩
    rw [hwork]

/-- Settles O20: the second pass of stage 3 reads the byte at the latches and sets the flag from it. -/
theorem compareResult : Obligations.CompareResult := by
  intro s hi lo
  refine ⟨?_, fun h => State.runTicks_address h rfl rfl rfl⟩
  rw [exec_of_writeback (i := .cpx hi lo) rfl nofun rfl, State.worked, State.passCpx_eq, State.issueAddress_eq]
  rfl

/-- Settles O21: the array after INC is the old one with one byte written, and no other address reaches that cell; stage
3 is a read alone. -/
theorem incrementResult : Obligations.IncrementResult := by
  refine ⟨fun s hi lo => ⟨?_, fun h => State.runTicks_address h rfl rfl rfl⟩, State.passInc_eq⟩
  have hexec := exec_inc s hi lo
  generalize ht : State.serviceInterrupt _ = t at hexec
  have hmem : t.mem = Memory.write s.mem (cellIndex (pairAddr hi lo)).toNat (s.byteAt (pairAddr hi lo) + 1) := by
    rw [← ht, State.serviceInterrupt_mem]
  have hbyte := State.byteAt_of_write hmem
  refine ⟨t, hexec, ?_, (hbyte _).trans (if_pos rfl), fun a ha => (hbyte a).trans (if_neg ha)⟩
  rw [hmem, ht]

end Sys2Proof.Machine
end

/-! # The branch (43_branch) -/

section

namespace Sys2Proof.Machine

/-! ## The sum of pc and an offset -/

theorem flagSet_eq_true_iff {z : BitVec 1} : flagSet z = true ↔ z = 1 := beq_iff_eq

/-- Signed and unsigned values of a byte are congruent modulo 256, so the signed offset has the same sum (R216). -/
theorem byte_add_eq_ofInt (pc off : Byte) : pc + off = BitVec.ofInt 8 (pc.toNat + off.toInt) := by
  rw [BitVec.ofInt_add, BitVec.ofInt_natCast, BitVec.ofInt_toInt, BitVec.ofNat_toNat, BitVec.setWidth_eq]

/-- The target as R215 words it: numbers added modulo 256, pc being 2 past the opcode byte. -/
theorem byte_add_two_add_eq_ofNat (pc off : Byte) : pc + 2 + off = BitVec.ofNat 8 (pc.toNat + 2 + off.toNat) := by
  rw [BitVec.ofNat_add, BitVec.ofNat_add, BitVec.ofNat_toNat, BitVec.ofNat_toNat, BitVec.setWidth_eq,
    BitVec.setWidth_eq, BitVec.ofNat_eq_ofNat]

/-! ## BNE -/

/-- Stage 3 of BNE finds pc past the operand byte and the offset in opp (R215). -/
theorem State.worked_bne (s : State) (off : Byte) :
    s.worked (.bne off) =
      { s with pc := if s.zFlag = 1 then s.pc + 2 + off else s.pc + 2, ir := 0xD0, opp := off,
               mar := fetchAddr (s.pc + 1), mdr := off, step := .writeback, stepCounter := s.stepCounter + 3 } := by
  simp only [State.worked, State.passBne_eq, State.issueOperand_eq, State.branchTarget, flagSet_eq_true_iff]

/-- BNE as a whole next state, with the target as a sum of bytes (R215). -/
theorem exec_bne (s : State) (off : Byte) :
    exec (.bne off) s = .next (State.serviceInterrupt
      { s with pc := if s.zFlag = 1 then s.pc + 2 + off else s.pc + 2, ir := 0xD0, opp := off,
               mar := fetchAddr (s.pc + 1), mdr := off, step := .fetch, stepCounter := 0 }) := by
  rw [exec_of_writeback (i := .bne off) rfl nofun rfl, State.worked_bne]

theorem State.serviceInterrupt_pc (s : State) : s.serviceInterrupt.pc = s.pc := by
  rw [State.serviceInterrupt_eq]

/-! ## The obligations -/

/-- Settles O22: the work of BNE leads to stage 4 whether or not the branch is taken, and the sum of bytes it puts in pc
is the one modulo 256. -/
theorem branchResult : Obligations.BranchResult := by
  intro s off
  refine ⟨?_, fun h => State.runTicks_operand h (List.mem_cons_of_mem _ List.mem_cons_self) rfl rfl⟩
  rw [exec_bne, byte_add_two_add_eq_ofNat]

/-- Settles O23: stage 5 leaves pc as the taken branch has set it, and the offset cancels the pc it is added to; both
readings of an offset denote the same byte. -/
theorem branchReachesEveryTarget : Obligations.BranchReachesEveryTarget := by
  refine ⟨fun s target hz => ⟨_, exec_bne s _, ?_⟩, fun pc off => ?_⟩
  · rw [State.serviceInterrupt_pc]
    calc (if s.zFlag = 1 then s.pc + 2 + (target - (s.pc + 2)) else s.pc + 2)
      _ = s.pc + 2 + (target - (s.pc + 2)) := if_pos hz
      _ = target := add_sub_cancel _ _
  · exact (byte_add_eq_ofInt pc off).symm.trans (BitVec.add_def pc off)

end Sys2Proof.Machine
end

/-! # NOP, SYS, BRK and the unknown opcode (44_system) -/

section

namespace Sys2Proof.Machine

/-! ## The end of an instruction, and the stop on an unknown byte -/

/-- Two ticks more finish any well-formed instruction whose work leads to stage 4: both forms of SYS too, which
`State.runTicks_of_worked` leaves out. -/
theorem State.runTicks_two_worked {s : State} {i : Instr} (hlive : s.live = true) (hwf : i.wellFormed s.xReg = true)
    (hw : (s.worked i).step = .writeback) : State.runTicks 2 (s.worked i) = exec i s := by
  rw [State.runTicks_retire (State.worked_live hlive hw) hw 0, State.runTicks_zero, exec_of_wellFormed hwf,
    State.finish_of_writeback hw]

/-- A byte outside the table as a whole next state: stage 2 stops the machine with `step` still 2 (R237, R150). -/
theorem State.stopUnknown_eq (s : State) (b : Byte) :
    s.stopUnknown b =
      { s with pc := s.pc + 1, ir := b, opp := b, mar := fetchAddr s.pc, mdr := b, step := .decodeOperand,
               stepCounter := s.stepCounter + 2, halted := some .unknownOpcode, stopCalls := s.stopCalls + 1 } := rfl

theorem State.runInstruction_unknown {s : State} (h : Opcode.ofByte (s.byteAt (fetchAddr s.pc)) = none) :
    s.runInstruction = .next (s.stopUnknown (s.byteAt (fetchAddr s.pc))) := by
  have hdecode : s.decodeNext = .error (.unknownOpcode (s.byteAt (fetchAddr s.pc))) := decode_of_unknown h _ _
  simp only [State.runInstruction, hdecode]

/-! ## Stage 3 of SYS (R226 to R232) -/

/-- With ir 0xFF stage 3 is the pass of SYS. -/
theorem State.cpuPulse_sys {s : State} (hrun : s.halted = none) (hacc : s.acc.toNat ≤ 0xFF) (hs : s.step = .execute)
    (hir : s.ir = 0xFF) : s.cpuPulse = s.passSys := by
  rw [State.cpuPulse_running hrun (s.accInRange_iff.2 hacc), State.runStage_execute hs,
    State.execute_sys (Opcode.ofByte_of_eq hir)]

theorem State.passSysString_first {s : State} (h : s.stepCounter = 3) : s.passSysString = s.latchHigh := if_pos h

/-- Every later pass is one of the string loop; the one with `stepCounter` 4 keeps the low byte first. -/
theorem State.passSysString_later {s : State} (h : s.stepCounter ≠ 3) :
    s.passSysString = (if s.stepCounter = 4 then s.latchLow else s).stringPass := by
  rw [State.passSysString, if_neg h, apply_ite State.stringPass]

/-! ## Passes of the string loop that read no zero byte (R229) -/

/-- The characters that `k` passes of the string loop emit: the bytes from the pointer on. -/
def State.chars (s : State) (k : Nat) : List OutItem :=
  (List.range k).map fun j => .char (s.byteAt (s.latched + BitVec.ofNat 16 j))

theorem State.chars_succ (s : State) (k : Nat) :
    s.chars (k + 1) = s.chars k ++ [.char (s.byteAt (s.latched + BitVec.ofNat 16 k))] := by
  simp only [State.chars, List.range_succ, List.map_append, List.map_singleton]

/-- None of the `k` bytes from the pointer on is zero. -/
def State.Unended (s : State) (k : Nat) : Prop := ∀ j < k, s.byteAt (s.latched + BitVec.ofNat 16 j) ≠ 0

theorem State.Unended.mono {s : State} {j k : Nat} (h : s.Unended k) (hjk : j ≤ k) : s.Unended j :=
  fun _ hi => h _ (Nat.lt_of_lt_of_le hi hjk)

/-- The machine with `k` characters emitted and the pointer past them, MAR and MDR aside, which hold the last read. -/
def State.emitted (s : State) (k : Nat) : State :=
  { s with out := s.out ++ s.chars k, irx := hiByte (s.latched + BitVec.ofNat 16 k),
           iry := loByte (s.latched + BitVec.ofNat 16 k), stepCounter := s.stepCounter + k }

theorem State.emitted_zero (s : State) : s.emitted 0 = s := by
  simp [State.emitted, State.chars, State.latched]

theorem State.emitted_latched (s : State) (k : Nat) : (s.emitted k).latched = s.latched + BitVec.ofNat 16 k :=
  pairAddr_bytes _

/-- The next pass then reads the byte `k` places after the pointer. -/
theorem State.byteAt_latched_of_emitted {s t : State} {k : Nat} {mar : Addr} {mdr : Byte}
    (h : t = { s.emitted k with mar := mar, mdr := mdr }) :
    t.latched = s.latched + BitVec.ofNat 16 k ∧ t.byteAt t.latched = s.byteAt (s.latched + BitVec.ofNat 16 k) := by
  subst h
  exact ⟨s.emitted_latched k, congrArg s.byteAt (s.emitted_latched k)⟩

/-- `k` passes over bytes that are not zero emit them and move the pointer past them. -/
theorem State.iterate_stringPass {s : State} {k : Nat} (h : s.Unended k) :
    ∃ mar mdr, State.stringPass^[k] s = { s.emitted k with mar := mar, mdr := mdr } := by
  induction k with
  | zero =>
    refine ⟨s.mar, s.mdr, ?_⟩
    rw [State.emitted_zero]
    rfl
  | succ k ih =>
    obtain ⟨mar, mdr, hk⟩ := ih (h.mono k.le_succ)
    obtain ⟨hptr, hbyte⟩ := State.byteAt_latched_of_emitted hk
    have hne : (State.stringPass^[k] s).byteAt (State.stringPass^[k] s).latched ≠ 0 := hbyte ▸ h k k.lt_succ_self
    refine ⟨s.latched + BitVec.ofNat 16 k, s.byteAt (s.latched + BitVec.ofNat 16 k), ?_⟩
    rw [Function.iterate_succ_apply', State.stringPass_char hne, hbyte, hptr, hk, State.emitted, State.emitted,
      State.chars_succ, ← List.append_assoc, BitVec.ofNat_add, ← BitVec.add_assoc]
    rfl

/-- While no zero byte has been read the machine is in stage 3. -/
theorem State.iterate_stringPass_step {s : State} {k : Nat} (h : s.Unended k) :
    (State.stringPass^[k] s).step = s.step := by
  obtain ⟨mar, mdr, hk⟩ := State.iterate_stringPass h
  rw [hk]
  rfl

/-- The passes after the one that keeps the low byte are ticks of the loop. -/
theorem State.looping_iterate_stringPass {s : State} {k : Nat} (hlive : s.live = true) (hs : s.step = .execute)
    (hir : s.ir = 0xFF) (hx : s.xReg = 2) (hc : 5 ≤ s.stepCounter + k) (h : s.Unended k) :
    (State.stringPass^[k] s).Looping := by
  obtain ⟨mar, mdr, hk⟩ := State.iterate_stringPass h
  rw [hk]
  exact ⟨(State.live_congr (s := s) rfl rfl rfl rfl).trans hlive, hs, hir, hx, hc⟩

/-- Passes of the loop are ticks, one each. -/
theorem State.runTicks_iterate_stringPass {s : State} {n : Nat} (h : ∀ j < n, (State.stringPass^[j] s).Looping) :
    State.runTicks n s = .next (State.stringPass^[n] s) := by
  induction n with
  | zero => rfl
  | succ n ih =>
    have hn : State.runTicks n s = .next (State.stringPass^[n] s) := ih fun j hj => h j (Nat.lt_succ_of_lt hj)
    have htick := (h n n.lt_succ_self).tick
    rw [State.runTicks_add, hn, andThen_next, State.runTicks_succ, htick, andThen_next, State.runTicks_zero,
      Function.iterate_succ_apply']

/-- The loop of the meaning makes the same passes as long as no zero byte is read. -/
theorem State.stringRun_add {s : State} {k : Nat} (n : Nat) (hs : s.step ≠ .writeback) (h : s.Unended k) :
    s.stringRun (k + n) = (State.stringPass^[k] s).stringRun n := by
  induction k generalizing n with
  | zero => rw [Nat.zero_add, Function.iterate_zero_apply]
  | succ k ih =>
    have hgo : (State.stringPass^[k] s).stringPass.step ≠ .writeback := by
      rw [← Function.iterate_succ_apply' State.stringPass, State.iterate_stringPass_step h]
      exact hs
    rw [Nat.add_right_comm, Nat.add_assoc, ih (n + 1) (h.mono k.le_succ), State.stringRun_succ, if_neg hgo,
      Function.iterate_succ_apply']

/-! ## The whole string form (R229, R231) -/

/-- The first zero byte stands `k` places after the pointer. -/
structure State.EndsAt (s : State) (k : Nat) : Prop where
  unended : s.Unended k
  zero : s.byteAt (s.latched + BitVec.ofNat 16 k) = 0

/-- The pass that reads the first zero byte leads to stage 4. -/
theorem State.EndsAt.iterate_stringPass {s : State} {k : Nat} (h : s.EndsAt k) :
    State.stringPass^[k + 1] s =
      { s.emitted k with mar := s.latched + BitVec.ofNat 16 k, mdr := 0, step := .writeback } := by
  obtain ⟨mar, mdr, hk⟩ := State.iterate_stringPass h.unended
  obtain ⟨hptr, hbyte⟩ := State.byteAt_latched_of_emitted hk
  rw [Function.iterate_succ_apply', State.stringPass_zero (hbyte.trans h.zero), hptr, hk]

/-- The loop of the meaning ends with that pass, if it may make as many. -/
theorem State.EndsAt.stringRun {s : State} {k n : Nat} (h : s.EndsAt k) (hs : s.step ≠ .writeback) (hkn : k < n) :
    s.stringRun n = State.stringPass^[k + 1] s := by
  obtain ⟨m, rfl⟩ : ∃ m, n = k + (m + 1) := ⟨n - k - 1, by omega⟩
  have hend : (State.stringPass^[k] s).stringPass.step = .writeback := by
    rw [← Function.iterate_succ_apply' State.stringPass, h.iterate_stringPass]
  rw [State.stringRun_add _ hs h.unended, State.stringRun_succ, if_pos hend, Function.iterate_succ_apply']

theorem State.EndsAt.worked_sysStr {s : State} {hi lo : Byte} {k : Nat} (h : (s.issueAddress 0xFF hi lo).EndsAt k)
    (hk : k < 65536) :
    s.worked (.sysStr hi lo) = State.stringPass^[k + 1] (s.issueAddress 0xFF hi lo) :=
  h.stringRun (by rw [State.issueAddress_eq]; nofun) hk

/-- From the boundary on, the string form has done its work after `k + 6` ticks: the sixth is the first pass. -/
theorem State.EndsAt.runTicks_worked_sysStr {s : State} {hi lo : Byte} {k : Nat}
    (h : (s.issueAddress 0xFF hi lo).EndsAt k) (hk : k < 65536) (hat : s.atInstr (.sysStr hi lo)) (n : Nat) :
    State.runTicks (k + n + 6) s = State.runTicks n (s.worked (.sysStr hi lo)) := by
  have hlive := (s.live_issueAddress 0xFF hi lo).trans (State.live_of_ready hat.1)
  have hx := State.xReg_of_atInstr_sysStr hat
  have hc : (s.issueAddress 0xFF hi lo).stepCounter = s.stepCounter + 4 := by rw [State.issueAddress_eq]
  have hloop : ∀ j < k, (State.stringPass^[j] (s.issueAddress 0xFF hi lo).stringPass).Looping := fun j hj => by
    rw [← Function.iterate_succ_apply]
    exact State.looping_iterate_stringPass hlive rfl rfl hx (by omega) (h.unended.mono hj)
  rw [State.runTicks_sysStr hat, State.runTicks_add, State.runTicks_iterate_stringPass hloop, andThen_next,
    ← Function.iterate_succ_apply, h.worked_sysStr hk]

/-! ## The obligations -/

/-- Settles O26: stage 3 with ir 0xFF is the pass of the string form, and what its loop does is decided by the byte at
the pointer that this pass sees. -/
theorem sysStringPulse : Obligations.SysStringPulse := by
  intro s hrun hacc hs hir hx
  have hpulse : s.cpuPulse = .next s.passSysString := (State.cpuPulse_sys hrun hacc hs hir).trans (State.passSys_two hx)
  refine ⟨fun h3 => by rw [hpulse, State.passSysString_first h3]; rfl, fun h3 u hu => ?_⟩
  have hpass : s.cpuPulse = .next u.stringPass := by rw [hpulse, State.passSysString_later h3, hu]; rfl
  have hkept : u.out = s.out ∧ u.stepCounter = s.stepCounter := by
    rw [hu]
    split <;> exact ⟨rfl, rfl⟩
  obtain ⟨hout, hc⟩ := hkept
  refine ⟨fun hzero => ?_, fun hchar => ?_⟩
  · rw [hpass, State.stringPass_zero hzero]
    rfl
  · rw [hpass, State.stringPass_char hchar, hout, hc]
    rfl

/-- Settles O27: the loop makes one pass for each character and one for the zero byte, and each is a tick. -/
theorem sysStringResult : Obligations.SysStringResult := by
  intro s hi lo k hx hk hne hzero
  have hend : (s.issueAddress 0xFF hi lo).EndsAt k := ⟨hne, hzero⟩
  have hwork := (hend.worked_sysStr hk).trans hend.iterate_stringPass
  have hw : (s.worked (.sysStr hi lo)).step = .writeback := by rw [hwork]
  have hwf : (Instr.sysStr hi lo).wellFormed s.xReg = true := beq_iff_eq.2 hx
  refine ⟨?_, fun hat => ?_⟩
  · rw [exec_of_writeback hwf nofun hw, hwork, State.issueAddress_eq]
    rfl
  · rw [show k + 8 = k + 2 + 6 from rfl, hend.runTicks_worked_sysStr hk hat,
      State.runTicks_two_worked (State.live_of_ready hat.1) hwf hw]

/-- Settles O28: every byte the loop reads is another than zero, so each tick is one more pass of it. -/
theorem unterminatedStringNeverEnds : Obligations.UnterminatedStringNeverEnds := by
  intro s n hne hrun hlis hhalt hacc hs hir hx hc
  have hlive : s.live = true := (State.live_iff s).2 ⟨hrun, hlis, hhalt, s.accInRange_iff.2 hacc⟩
  have hunended : ∀ j, s.Unended j := fun _ _ _ => hne _
  have hticks : State.runTicks n s = .next (State.stringPass^[n] s) :=
    State.runTicks_iterate_stringPass fun j _ =>
      State.looping_iterate_stringPass hlive hs hir hx (Nat.le_add_right_of_le hc) (hunended j)
  obtain ⟨mar, mdr, hn⟩ := State.iterate_stringPass (hunended n)
  rw [hn] at hticks
  exact ⟨_, hticks, hs, hhalt, rfl, rfl, rfl, s.emitted_latched n⟩

/-- Settles O24: stage 3 of NOP only advances, and stage 5 services a device as after every instruction. -/
theorem noOperationResult : Obligations.NoOperationResult := by
  intro s
  refine ⟨?_, fun h => ?_⟩
  · rw [exec_of_writeback (i := .nop) rfl nofun rfl, State.worked, State.passNop_eq, State.issueDirect_eq]
  · rw [State.runTicks_worked_direct h rfl rfl 2, State.runTicks_of_worked h nofun rfl]

/-- Settles O25: stage 2 fetches no operand byte, and stage 3 emits yReg as a number. -/
theorem sysIntegerResult : Obligations.SysIntegerResult := by
  intro s hx
  have hwf : Instr.sys.wellFormed s.xReg = true := beq_iff_eq.2 hx
  refine ⟨?_, fun h => ?_⟩
  · rw [exec_of_writeback hwf nofun rfl, State.worked, State.passSysInt_eq, State.issueDirect_eq]
  · have hone : (s.issueDirect 0xFF).passSys = .next (s.worked .sys) := State.passSys_one hx
    rw [State.runTicks_sys h 2, hone, andThen_next, State.runTicks_two_worked (State.live_of_ready h.1) hwf rfl]

/-- Settles O29: neither form is selected, and stage 3 has no pass for another selector. -/
theorem selectorOutsideRefused : Obligations.SelectorOutsideRefused := by
  intro s h1 h2
  exact ⟨if_neg h1, fun _ _ => if_neg h2,
    fun hrun hacc hs hir => (State.cpuPulse_sys hrun hacc hs hir).trans (State.passSys_other h1 h2)⟩

/-- Settles O30: the stop is the work of BRK, and with `step` still 3 no stage comes after it. -/
theorem breakStops : Obligations.BreakStops := by
  intro s
  have hexec : exec .brk s = .next (s.worked .brk) := rfl
  refine ⟨?_, fun h => ?_⟩
  · rw [hexec, State.worked, State.passBrk_eq, State.issueDirect_eq]
  · rw [State.runTicks_worked_direct h rfl rfl 0, State.runTicks_zero, hexec]

/-- Settles O31: the step runs what the decoder rejects as the stop of stage 2, which is the third tick. -/
theorem unknownOpcodeStops : Obligations.UnknownOpcodeStops := by
  intro s b hready hin hb hop
  have hunknown : Opcode.ofByte (s.byteAt (fetchAddr s.pc)) = none := hb ▸ hop
  have hstep : step s = .next (s.stopUnknown b) := by
    rw [step_of_ready hin hready, State.runInstruction_unknown hunknown, hb]
  refine ⟨?_, ?_⟩
  · rw [hstep, State.stopUnknown_eq, State.stepCounter_of_ready hready]
  · rw [hstep, State.runTicks_stopUnknown hready hunknown 0, State.runTicks_zero, hb]

end Sys2Proof.Machine
end

/-! # The pending queue, interrupt service and what devices do (60_exceptions) -/

section

namespace Sys2Proof.Machine

/-! ## The queue's two operations (R259 to R261, R265) -/

/-- An entry that is higher than every entry there becomes the head. -/
theorem enqueue_of_all_lower {p : Pending} {q : List Pending} (h : ∀ y ∈ q, y.priority < p.priority) :
    enqueue p q = p :: q := by
  cases q with
  | nil => rfl
  | cons x rest => exact if_pos (List.all_eq_true.2 fun y hy => decide_eq_true (h y hy))

/-- An entry that is not higher than the head goes behind it. -/
theorem enqueue_of_le_head {p x : Pending} {rest : List Pending} (h : p.priority ≤ x.priority) :
    enqueue p (x :: rest) = x :: enqueue p rest := by
  refine if_neg fun hall => ?_
  have hlower : x.priority < p.priority := of_decide_eq_true (List.all_eq_true.1 hall x List.mem_cons_self)
  omega

theorem queueSorted_iff_pairwise (q : List Pending) :
    queueSorted q = true ↔ q.Pairwise (fun a b => b.priority ≤ a.priority) := by
  induction q with
  | nil => exact iff_of_true rfl .nil
  | cons p rest ih => rw [queueSorted_cons, List.pairwise_cons, ih]

theorem queueSorted_tail {q : List Pending} (h : queueSorted q = true) : queueSorted q.tail = true :=
  (queueSorted_iff_pairwise _).2 ((queueSorted_iff_pairwise _).1 h).tail

theorem State.getInterrupt_nil {s : State} (h : s.queue = []) : s.getInterrupt = (none, s) := by
  simp only [State.getInterrupt, h]

theorem State.getInterrupt_cons {s : State} {p : Pending} {rest : List Pending} (h : s.queue = p :: rest) :
    s.getInterrupt = (some p.device, { s with queue := rest }) := by
  simp only [State.getInterrupt, h]

/-- Taking the next entry leaves the tail of the queue, which is empty when the queue was. -/
theorem State.getInterrupt_queue (s : State) : s.getInterrupt.2.queue = s.queue.tail := by
  cases hq : s.queue with
  | nil => rw [State.getInterrupt_nil hq, hq]; rfl
  | cons p rest => rw [State.getInterrupt_cons hq]; rfl

/-! ## The operations on a device that exists (R257, R258, R263, R270) -/

section

variable {s : State} {d : Nat} {dev : Device} (h : s.deviceTable[d]? = some dev)

include h

theorem State.push_of_get (p : Port) (v : Nat) :
    s.push d p v = s.setDevice d (dev.setPort p (dev.port p ++ [v])) := by
  simp only [State.push, h]

theorem State.acceptInterrupt_of_get :
    s.acceptInterrupt d = { s with queue := enqueue { device := d, priority := dev.priority } s.queue } := by
  simp only [State.acceptInterrupt, h]

theorem State.addDevice_of_get :
    s.addDevice d = { s with devices := s.devices ++ [d],
                             deviceTable := s.deviceTable.set d { dev with debug := s.controllerDebug } } := by
  simp only [State.addDevice, h]
  rfl

/-- Storing a device back as it is changes nothing. -/
theorem State.setDevice_self : s.setDevice d dev = s := by
  obtain ⟨hlt, rfl⟩ := List.getElem?_eq_some_iff.1 h
  rw [State.setDevice, List.set_getElem_self]

/-- Draining a queue removes and logs its head; of an empty queue the tail is the queue and there is no head. -/
theorem State.drain_of_get (p : Port) :
    s.drain d p = { s with deviceTable := s.deviceTable.set d (dev.setPort p (dev.port p).tail),
                           log := s.log ++ (dev.port p).head?.toList.map (.drained d p ·) } := by
  cases hp : dev.port p with
  | nil =>
    have hsame : dev.setPort p [] = dev := by
      rw [← hp]
      cases p <;> rfl
    have hset : s.deviceTable.set d dev = s.deviceTable := congrArg State.deviceTable (State.setDevice_self h)
    simp [State.drain, h, hp, hsame, hset]
  | cons v rest =>
    simp only [State.drain, h, hp]
    rfl

end

theorem State.serviceInterrupt_nil {s : State} (h : s.queue = []) : s.serviceInterrupt = s := by
  simp only [State.serviceInterrupt, State.getInterrupt_nil h]

theorem State.serviceInterrupt_cons {s : State} {p : Pending} {rest : List Pending} (h : s.queue = p :: rest) :
    s.serviceInterrupt = (State.drain { s with queue := rest } p.device .input).drain p.device .output := by
  simp only [State.serviceInterrupt, State.getInterrupt_cons h]

/-- Service of a device that exists: the second drain finds the device with its input queue already drained (D25). -/
theorem State.serviceInterrupt_of_get {s : State} {p : Pending} {rest : List Pending} {dev : Device}
    (h : s.queue = p :: rest) (hdev : s.deviceTable[p.device]? = some dev) :
    s.serviceInterrupt =
      { s with queue := rest,
               deviceTable := s.deviceTable.set p.device { dev with input := dev.input.tail, output := dev.output.tail },
               log := s.log ++ (dev.input.head?.toList.map (fun v => .drained p.device .input v))
                        ++ (dev.output.head?.toList.map (fun v => .drained p.device .output v)) } := by
  have hlt : p.device < s.deviceTable.length := (List.getElem?_eq_some_iff.1 hdev).1
  rw [State.serviceInterrupt_cons h, State.drain_of_get (s := { s with queue := rest }) hdev .input,
    State.drain_of_get (List.getElem?_set_self hlt) .output]
  simp only [Device.port, Device.setPort, List.set_set]

/-! ## A stopped machine (R255) -/

theorem State.pulseAll_halted {s : State} (h : s.halted.isSome = true) (ls : List Listener) :
    State.pulseAll ls s = .next s := by
  induction ls with
  | nil => rfl
  | cons l rest ih =>
    cases l with
    | cpu => rw [State.pulseAll, State.pulse, State.cpuPulse_halted h, andThen_next, ih]
    | memory | controller => exact ih

theorem State.tick_halted {s : State} (h : s.halted.isSome = true) : s.tick = .next s := by
  cases hrun : s.running with
  | false => exact State.tick_stopped hrun
  | true => rw [State.tick_running hrun, State.pulseAll_halted h]

theorem State.runTicks_halted {s : State} (h : s.halted.isSome = true) (n : Nat) : State.runTicks n s = .next s := by
  induction n with
  | zero => rfl
  | succ n ih => rw [State.runTicks_succ, State.tick_halted h, andThen_next, ih]

theorem State.not_ready_of_halted {s : State} (h : s.halted.isSome = true) : ¬ s.ready = true := by
  intro hready
  obtain ⟨hlive, -⟩ := (State.ready_iff s).1 hready
  obtain ⟨-, -, hhalt, -⟩ := (State.live_iff s).1 hlive
  rw [hhalt] at h
  cases h

/-! ## The one service of an instruction (R272, R273) -/

/-- No pass through stage 3 takes a pending entry or logs anything. -/
theorem State.worked_queue_log (s : State) (i : Instr) :
    (s.worked i).queue = s.queue ∧ (s.worked i).log = s.log := by
  cases i with
  | adc hi lo => rw [State.worked, State.passAdc_frame]; exact ⟨rfl, rfl⟩
  | sysStr hi lo =>
    rw [State.worked, State.stringRun_frame _ (by rw [State.issueAddress_eq]; nofun)]
    exact ⟨rfl, rfl⟩
  | _ => exact ⟨rfl, rfl⟩

/-- A pass of the string loop stays in stage 3 or leads to stage 4. -/
theorem State.stringPass_step_ne_fetch {s : State} (h : s.step ≠ .fetch) : s.stringPass.step ≠ .fetch := by
  by_cases hb : s.byteAt s.latched = 0
  · rw [State.stringPass_zero hb]; nofun
  · rwa [State.stringPass_char hb]

/-- The work of an instruction ends before its stage 5. -/
theorem State.worked_step_ne_fetch (s : State) (i : Instr) : (s.worked i).step ≠ .fetch := by
  cases i with
  | adc hi lo =>
    rw [State.worked]
    cases ho : adcOverflows (s.issueAddress 0x6D hi lo).acc
        ((s.issueAddress 0x6D hi lo).byteAt (s.issueAddress 0x6D hi lo).latched) with
    | false => rw [State.passAdc_of_inRange ho]; nofun
    | true => rw [State.passAdc_of_overflow ho]; nofun
  | sysStr hi lo =>
    exact State.stringRun_induction (P := fun u => u.step ≠ .fetch) (fun _ hu _ => State.stringPass_step_ne_fetch hu)
      Config.memorySize (s.issueAddress 0xFF hi lo) (by rw [State.issueAddress_eq]; nofun)
      (by rw [State.issueAddress_eq]; nofun)
  | _ => nofun

theorem State.retire_queue (s : State) : s.retire.queue = s.queue.tail := by
  rw [State.retire, State.interruptCheck_frame, State.writeback_frame]

theorem State.retire_step (s : State) : s.retire.step = .fetch := rfl

/-! ## The obligations -/

/-- Settles O44: a halted CPU ignores its pulse, so every tick is idle, and a halted machine is never ready. -/
theorem stopIsFinal : Obligations.StopIsFinal := by
  intro s r n
  refine ⟨rfl, fun hstop => State.runTicks_halted (Option.isSome_iff_ne_none.2 hstop) n, fun hstop hin => ?_⟩
  have hsome : s.halted.isSome = true := Option.isSome_iff_ne_none.2 hstop
  rw [step_of_not_ready hin (State.not_ready_of_halted hsome), State.tick_halted hsome]

/-- Settles O45, by induction on the queue: where the head is lower than the new entry, so is every entry after it. -/
theorem enqueueBehindEqualPriority : Obligations.EnqueueBehindEqualPriority := by
  intro p q
  induction q with
  | nil => exact fun _ => rfl
  | cons x rest ih =>
    intro h
    obtain ⟨hhead, hrest⟩ := queueSorted_cons.1 h
    by_cases hx : p.priority ≤ x.priority
    · rw [enqueue_of_le_head hx, ih hrest]
      simp [hx]
    · have hlower : ∀ y ∈ x :: rest, y.priority < p.priority := by
        intro y hy
        rcases List.mem_cons.1 hy with rfl | hy
        · exact not_le.1 hx
        · exact (hhead y hy).trans_lt (not_le.1 hx)
      have hnone : (x :: rest).filter (fun y => decide (p.priority ≤ y.priority)) = [] :=
        List.filter_eq_nil_iff.2 fun y hy => by simpa using hlower y hy
      have hall : (x :: rest).filter (fun y => decide (y.priority < p.priority)) = x :: rest :=
        List.filter_eq_self.2 fun y hy => decide_eq_true (hlower y hy)
      rw [enqueue_of_all_lower hlower, hnone, hall, List.nil_append]

/-- Settles O46: the new entry goes where the order has it, and a queue in order without its head is in order. -/
theorem queueStaysSorted : Obligations.QueueStaysSorted := by
  refine ⟨fun _ _ => queueSorted_enqueue, fun s h => ?_, queueSorted_iff_pairwise⟩
  rw [State.getInterrupt_queue]
  exact queueSorted_tail h

/-- Settles O48: an instruction is its work, which takes no entry, and then, if it has reached stage 4, the one service
of its stage 5. -/
theorem oneDevicePerInstruction : Obligations.OneDevicePerInstruction := by
  intro i s t h
  obtain ⟨rfl, -, -⟩ := exec_next h
  obtain ⟨hqueue, hlog⟩ := s.worked_queue_log i
  by_cases hw : (s.worked i).step = .writeback
  · rw [State.finish_of_writeback hw]
    exact ⟨fun _ => by rw [State.retire_queue, hqueue], fun hne => absurd (State.retire_step _) hne⟩
  · rw [State.finish_of_not_writeback hw]
    exact ⟨fun hf => absurd hf (s.worked_step_ne_fetch i), fun _ => ⟨hqueue, hlog⟩⟩

/-- Settles O47: service is the removal of the head and then two drains of its device. -/
theorem serviceTakesOneValueOfEachQueue : Obligations.ServiceTakesOneValueOfEachQueue := fun _ =>
  ⟨fun h => ⟨State.getInterrupt_nil h, State.serviceInterrupt_nil h⟩, fun _ _ => State.getInterrupt_cons,
    fun _ _ _ => State.serviceInterrupt_of_get⟩

/-- Settles O49: each operation looks its device up and writes what the rule names. -/
theorem deviceOperationEffects : Obligations.DeviceOperationEffects := fun _ _ v _ h =>
  ⟨congrArg Host.Outcome.next (State.push_of_get h .input v), congrArg Host.Outcome.next (State.push_of_get h .output v),
    congrArg Host.Outcome.next (State.acceptInterrupt_of_get h), congrArg Host.Outcome.next (State.addDevice_of_get h)⟩

end Sys2Proof.Machine
end

/-! # What a program can see does not depend on the devices (R41, R262, R271) -/

section

namespace Sys2Proof.Machine

/-! ## Device actions -/

theorem State.push_programView (s : State) (d : Nat) (p : Port) (v : Nat) :
    (s.push d p v).programView = s.programView := by
  unfold State.push
  split <;> rfl

theorem State.acceptInterrupt_programView (s : State) (d : Nat) :
    (s.acceptInterrupt d).programView = s.programView := by
  unfold State.acceptInterrupt
  split <;> rfl

theorem State.addDevice_programView (s : State) (d : Nat) : (s.addDevice d).programView = s.programView := by
  unfold State.addDevice
  split <;> rfl

/-- A device action writes only what a program cannot see. -/
theorem State.act_ofDevice {a : Action} (h : a.ofDevice = true) (s : State) :
    ∃ t, s.act a = .next t ∧ t.programView = s.programView := by
  cases a with
  | pushInput d v => exact ⟨_, rfl, s.push_programView d .input v⟩
  | pushOutput d v => exact ⟨_, rfl, s.push_programView d .output v⟩
  | acceptInterrupt d => exact ⟨_, rfl, s.acceptInterrupt_programView d⟩
  | addDevice d => exact ⟨_, rfl, s.addDevice_programView d⟩
  | createDevice name irq priority => exact ⟨_, rfl, rfl⟩
  | _ => cases h

/-- Settles O52: what a device action writes is what the view leaves out. -/
theorem deviceActionsInvisible : Obligations.DeviceActionsInvisible := fun s _ h => s.act_ofDevice h

/-! ## The passes of stage 3 and stages 2 and 4

None of them reads or writes what a program cannot see, so each commutes with taking the view. -/

theorem Opcode.lastPass_programView (op : Opcode) (s : State) :
    Opcode.lastPass op s.programView = (Opcode.lastPass op s).programView := by
  cases op with
  | adc =>
    simp only [Opcode.lastPass, State.passAdc, apply_ite State.programView]
    rfl
  | _ => rfl

theorem State.stringPass_programView (s : State) : s.programView.stringPass = s.stringPass.programView := by
  simp only [State.stringPass, apply_ite State.programView]
  rfl

theorem State.stringRun_programView (n : Nat) (s : State) :
    s.programView.stringRun n = (s.stringRun n).programView := by
  induction n generalizing s with
  | zero => rfl
  | succ n ih =>
    rw [State.stringRun_succ, State.stringRun_succ, State.stringPass_programView, ih, apply_ite State.programView]
    rfl

theorem State.passSysString_programView (s : State) : s.programView.passSysString = s.passSysString.programView := by
  simp only [State.passSysString, apply_ite State.programView, ← State.stringPass_programView]
  rfl

theorem State.passSys_programView (s : State) : s.programView.passSys = mapNext State.programView s.passSys := by
  simp only [State.passSys, apply_ite (mapNext State.programView), State.passSysString_programView]
  rfl

theorem State.twoPass_programView (op : Opcode) (s : State) :
    s.programView.twoPass (Opcode.lastPass op) = (s.twoPass (Opcode.lastPass op)).programView := by
  simp only [State.twoPass, apply_ite State.programView, ← Opcode.lastPass_programView]
  rfl

theorem State.execute_programView (s : State) : s.programView.execute = mapNext State.programView s.execute := by
  cases hop : Opcode.ofByte s.ir with
  | none => rw [State.execute_unknown hop, State.execute_unknown (s := s.programView) hop]; rfl
  | some op =>
    cases op with
    | sys => rw [State.execute_sys hop, State.execute_sys (s := s.programView) hop, State.passSys_programView]
    | lda | sta | adc | ldx | ldy | cpx | inc =>
      rw [State.execute_address hop rfl, State.execute_address (s := s.programView) hop rfl,
        State.twoPass_programView]
      rfl
    | _ =>
      rw [State.execute_single hop (by decide), State.execute_single (s := s.programView) hop (by decide),
        Opcode.lastPass_programView]
      rfl

theorem State.decodeOperand_programView (s : State) : s.programView.decodeOperand = s.decodeOperand.programView := by
  cases hop : Opcode.ofByte s.ir with
  | none => rw [State.decodeOperand_unknown hop, State.decodeOperand_unknown (s := s.programView) hop]; rfl
  | some op =>
    cases op with
    | nop | brk => rw [State.decodeOperand_impl hop rfl, State.decodeOperand_impl (s := s.programView) hop rfl]; rfl
    | sys =>
      rw [State.decodeOperand_sys hop, State.decodeOperand_sys (s := s.programView) hop, apply_ite State.programView]
      rfl
    | _ =>
      rw [State.decodeOperand_operand hop (by decide),
        State.decodeOperand_operand (s := s.programView) hop (by decide)]
      rfl

theorem State.writeback_programView (s : State) : s.programView.writeback = s.writeback.programView := by
  by_cases hinc : s.ir = 0xEE
  · rw [State.writeback_inc hinc, State.writeback_inc (s := s.programView) hinc]; rfl
  · rw [State.writeback_of_ne_inc hinc, State.writeback_of_ne_inc (s := s.programView) hinc]; rfl

/-- The view after stage 5 is the view with the return to FETCH: service is invisible. -/
theorem State.interruptCheck_programView (s : State) :
    s.interruptCheck.programView = { s.programView with step := .fetch, stepCounter := 0 } := by
  rw [State.interruptCheck_frame]
  rfl

theorem State.worked_programView (s : State) (i : Instr) : s.programView.worked i = (s.worked i).programView := by
  rcases Instr.operands_of_format i with ⟨-, hb⟩ | ⟨-, b, hb⟩ | ⟨hf, hi, lo, hb⟩ | rfl | ⟨hi, lo, rfl⟩
  · rw [State.worked_direct hb, State.worked_direct hb, ← Opcode.lastPass_programView]; rfl
  · rw [State.worked_operand hb, State.worked_operand hb, ← Opcode.lastPass_programView]; rfl
  · rw [State.worked_address hf hb, State.worked_address hf hb, ← Opcode.lastPass_programView]; rfl
  · rfl
  · exact State.stringRun_programView Config.memorySize (s.issueAddress 0xFF hi lo)

/-! ## Operations whose visible outcome depends on what is visible alone -/

/-- From states that look alike to a program, `f` leads to states that look alike, or has the same refusal from both. -/
def RespectsView (f : State → Host.Outcome State Fault Refusal) : Prop :=
  ∀ s t : State, s.programView = t.programView →
    mapNext State.programView (f s) = mapNext State.programView (f t)

/-- It is enough to compare each state with its own view. -/
theorem RespectsView.of_view {f : State → Host.Outcome State Fault Refusal}
    (h : ∀ s, mapNext State.programView (f s) = mapNext State.programView (f s.programView)) : RespectsView f := by
  intro s t hst
  rw [h s, hst, ← h t]

theorem RespectsView.next {f : State → State}
    (h : ∀ s : State, (f s).programView = (f s.programView).programView) : RespectsView (fun s => .next (f s)) :=
  .of_view fun s => congrArg Host.Outcome.next (h s)

/-- An operation that always answers a state that looks as before. -/
theorem RespectsView.of_invisible {f : State → Host.Outcome State Fault Refusal}
    (h : ∀ s, ∃ t, f s = .next t ∧ t.programView = s.programView) : RespectsView f := by
  intro s t hst
  obtain ⟨u, hu, husame⟩ := h s
  obtain ⟨v, hv, hvsame⟩ := h t
  rw [hu, hv]
  exact congrArg Host.Outcome.next (husame.trans (hst.trans hvsame.symm))

/-- Outcomes that look alike stay so under what follows: two next states are taken on, and a refusal ends both. -/
theorem RespectsView.andThen_congr {g : State → Host.Outcome State Fault Refusal} (hg : RespectsView g)
    {o p : Host.Outcome State Fault Refusal} (h : mapNext State.programView o = mapNext State.programView p) :
    mapNext State.programView (andThen o g) = mapNext State.programView (andThen p g) := by
  cases o with
  | next u =>
    cases p with
    | next v => exact hg u v (Host.Outcome.next.inj h)
    | fault r | refused r => cases h
  | fault r => cases r
  | refused r =>
    cases p with
    | next v | fault r' => cases h
    | refused r' => exact h

theorem RespectsView.andThen {f g : State → Host.Outcome State Fault Refusal} (hf : RespectsView f)
    (hg : RespectsView g) : RespectsView (fun s => andThen (f s) g) :=
  fun s t hst => hg.andThen_congr (hf s t hst)

/-- A choice by something visible between two such operations. -/
theorem RespectsView.ite {c : State → Bool} {f g : State → Host.Outcome State Fault Refusal}
    (hc : ∀ s : State, c s = c s.programView) (hf : RespectsView f) (hg : RespectsView g) :
    RespectsView (fun s => if c s = true then f s else g s) := by
  intro s t hst
  have hct : c s = c t := by rw [hc s, hst, ← hc t]
  simp only [hct, apply_ite (mapNext State.programView), hf s t hst, hg s t hst]

/-! ## Pulses and ticks -/

theorem State.respectsView_runStage : RespectsView State.runStage := by
  refine .of_view fun s => ?_
  have hstep : s.programView.step = s.step := rfl
  cases h : s.step with
  | fetch => rw [State.runStage_fetch h, State.runStage_fetch (hstep.trans h)]; rfl
  | decodeOpcode => rw [State.runStage_decodeOpcode h, State.runStage_decodeOpcode (hstep.trans h)]; rfl
  | decodeOperand =>
    rw [State.runStage_decodeOperand h, State.runStage_decodeOperand (hstep.trans h), State.decodeOperand_programView]
    rfl
  | execute =>
    rw [State.runStage_execute h, State.runStage_execute (hstep.trans h), State.execute_programView]
    cases s.execute <;> rfl
  | writeback =>
    rw [State.runStage_writeback h, State.runStage_writeback (hstep.trans h), State.writeback_programView]
    rfl
  | interruptCheck =>
    rw [State.runStage_interruptCheck h, State.runStage_interruptCheck (hstep.trans h)]
    refine congrArg Host.Outcome.next ?_
    rw [State.interruptCheck_programView, State.interruptCheck_programView]
    rfl

theorem State.respectsView_cpuPulse : RespectsView State.cpuPulse :=
  .ite (c := fun s => s.halted.isSome) (fun _ => rfl) (.next fun _ => rfl)
    (.ite (fun _ => rfl) State.respectsView_runStage (.of_view fun _ => rfl))

theorem State.respectsView_pulseAll (ls : List Listener) : RespectsView (State.pulseAll ls) := by
  induction ls with
  | nil => exact .next fun _ => rfl
  | cons l rest ih =>
    cases l with
    | cpu => exact State.respectsView_cpuPulse.andThen ih
    | memory | controller => exact ih

theorem State.respectsView_sendPulse : RespectsView State.sendPulse := by
  intro s t hst
  have hlis : s.listeners = t.listeners := (congrArg State.listeners hst :)
  rw [State.sendPulse, State.sendPulse, hlis]
  exact State.respectsView_pulseAll t.listeners s t hst

theorem State.respectsView_tick : RespectsView State.tick :=
  .ite (fun _ => rfl) State.respectsView_sendPulse (.next fun _ => rfl)

/-! ## Actions from outside (R135) -/

theorem State.addListener_programView (s : State) (c : Component) :
    (s.addListener c).programView = (s.programView.addListener c).programView := by
  unfold State.addListener
  cases c.listener <;> rfl

theorem State.respectsView_act (a : Action) : RespectsView (·.act a) := by
  cases a with
  | pushInput d v | pushOutput d v | acceptInterrupt d | addDevice d | createDevice name irq priority =>
    exact .of_invisible (State.act_ofDevice (by rfl))
  | addListener c => exact .next fun s => s.addListener_programView c
  | sendPulse => exact State.respectsView_sendPulse
  | start | stop | memoryReset | store a b | rawStore i b | recreate => exact .next fun _ => rfl

theorem State.respectsView_actAll (as : List Action) : RespectsView (State.actAll as) := by
  induction as with
  | nil => exact .next fun _ => rfl
  | cons a rest ih => exact (State.respectsView_act a).andThen ih

/-! ## Whole instructions and the step -/

/-- What is not well formed is a form of SYS under an xReg that does not select it (R232). -/
theorem exec_of_not_wellFormed {i : Instr} {s : State} (h : ¬ i.wellFormed s.xReg = true) :
    exec i s = .refused .sysSelector := by
  cases i with
  | sys => exact if_neg fun hx => h (beq_iff_eq.2 hx)
  | sysStr hi lo => exact if_neg fun hx => h (beq_iff_eq.2 hx)
  | _ => exact absurd rfl h

/-- The view after stages 4 and 5, too, is a function of the view. -/
theorem State.finish_programView (s : State) : s.finish.programView = s.programView.finish.programView := by
  have hretire : s.retire.programView = s.programView.retire.programView := by
    rw [State.retire, State.retire, State.interruptCheck_programView, State.interruptCheck_programView,
      State.writeback_programView]
    rfl
  rw [State.finish, State.finish, apply_ite State.programView, apply_ite State.programView, hretire]
  rfl

theorem respectsView_exec (i : Instr) : RespectsView (exec i) := by
  refine .of_view fun s => ?_
  by_cases hwf : i.wellFormed s.xReg = true
  · rw [exec_of_wellFormed hwf, exec_of_wellFormed (s := s.programView) hwf]
    refine congrArg Host.Outcome.next ?_
    rw [State.finish_programView, State.worked_programView]
  · rw [exec_of_not_wellFormed hwf, exec_of_not_wellFormed (s := s.programView) hwf]

theorem State.respectsView_runInstruction : RespectsView State.runInstruction := by
  intro s t hst
  have hdecode : s.decodeNext = t.decodeNext := (congrArg State.decodeNext hst :)
  cases hd : t.decodeNext with
  | ok found =>
    rw [State.runInstruction_of_decodeNext (hdecode.trans hd), State.runInstruction_of_decodeNext hd]
    exact respectsView_exec found.1 s t hst
  | error why =>
    simp only [State.runInstruction, hdecode, hd]
    cases why with
    | unknownOpcode b => exact RespectsView.next (f := (·.stopUnknown b)) (fun _ => rfl) s t hst
    | truncated op => exact State.respectsView_tick s t hst

/-- Settles O51: decoding, readiness, the Clock and the schedule are read off the view, and each stage, each action and
each instruction that they lead to respects it. -/
theorem devicesDoNotInfluencePrograms : Obligations.DevicesDoNotInfluencePrograms := by
  intro s t hst
  have hin : s.inputs = t.inputs := (congrArg State.inputs hst :)
  cases ht : t.inputs with
  | nil =>
    have hstep : ∀ u : State, u.inputs = [] → step u = if u.ready = true then u.runInstruction else u.tick :=
      fun u hu => by simp only [step, hu]
    rw [hstep s (hin.trans ht), hstep t ht]
    exact RespectsView.ite (fun _ => rfl) State.respectsView_runInstruction State.respectsView_tick s t hst
  | cons slot rest =>
    rw [step_of_scheduled (hin.trans ht), step_of_scheduled ht]
    exact (State.respectsView_actAll slot).andThen State.respectsView_tick _ _
      (congrArg (fun u : State => { u with inputs := rest }) hst)

end Sys2Proof.Machine
end

/-! # The pulse counts of the table (R330) -/

section

namespace Sys2Proof.Machine

/-! ## The string that `stringLength` measures (R229) -/

theorem State.stringLength_of_zero {s : State} {p : Addr} (h : s.byteAt p = 0) (n : Nat) :
    s.stringLength p (n + 1) = 0 :=
  if_pos h

theorem State.stringLength_of_ne_zero {s : State} {p : Addr} (h : s.byteAt p ≠ 0) (n : Nat) :
    s.stringLength p (n + 1) = s.stringLength (p + 1) n + 1 :=
  if_neg h

/-- The pointer `j + 1` places on is `j` places on from the next address. -/
theorem addr_add_succ (p : Addr) (j : Nat) : p + BitVec.ofNat 16 (j + 1) = p + 1 + BitVec.ofNat 16 j := by
  rw [Nat.add_comm, BitVec.ofNat_add, ← BitVec.add_assoc]
  rfl

/-- The bytes that are counted are not zero. -/
theorem State.byteAt_ne_zero_of_lt_stringLength {s : State} {p : Addr} {n j : Nat} (h : j < s.stringLength p n) :
    s.byteAt (p + BitVec.ofNat 16 j) ≠ 0 := by
  induction n generalizing p j with
  | zero => exact absurd h (Nat.not_lt_zero j)
  | succ n ih =>
    by_cases hz : s.byteAt p = 0
    · rw [State.stringLength_of_zero hz] at h
      exact absurd h (Nat.not_lt_zero j)
    · cases j with
      | zero => rwa [BitVec.add_zero]
      | succ j =>
        rw [State.stringLength_of_ne_zero hz] at h
        rw [addr_add_succ]
        exact ih (Nat.lt_of_succ_lt_succ h)

/-- The count ends at a zero byte unless it ends at its bound. -/
theorem State.byteAt_stringLength {s : State} {p : Addr} {n : Nat} (h : s.stringLength p n < n) :
    s.byteAt (p + BitVec.ofNat 16 (s.stringLength p n)) = 0 := by
  induction n generalizing p with
  | zero => exact absurd h (Nat.not_lt_zero _)
  | succ n ih =>
    by_cases hz : s.byteAt p = 0
    · rwa [State.stringLength_of_zero hz, BitVec.add_zero]
    · rw [State.stringLength_of_ne_zero hz] at h ⊢
      rw [addr_add_succ]
      exact ih (Nat.lt_of_succ_lt_succ h)

/-- Where some byte is zero, the string from any address on ends within one round of the memory. -/
theorem State.stringLength_lt {s : State} (h : ∃ a, s.byteAt a = 0) (p : Addr) :
    s.stringLength p Config.memorySize < Config.memorySize := by
  obtain ⟨a, ha⟩ := h
  have hle : s.stringLength p Config.memorySize ≤ (a - p).toNat := by
    by_contra hlt
    refine State.byteAt_ne_zero_of_lt_stringLength (Nat.lt_of_not_le hlt) ?_
    rwa [BitVec.ofNat_toNat, BitVec.setWidth_eq, BitVec.add_comm, BitVec.sub_add_cancel]
  exact Nat.lt_of_le_of_lt hle (Memory.addr_lt (a - p))

/-! ## The instructions whose count depends on what they meet -/

/-- ADC takes two pulses less when it stops (R200). -/
theorem State.runTicks_pulseCount_adc {s : State} {hi lo : Byte} (h : s.atInstr (.adc hi lo)) :
    State.runTicks (pulseCount (.adc hi lo) s) s = exec (.adc hi lo) s := by
  cases ho : adcOverflows s.acc (s.byteAt (pairAddr hi lo)) with
  | true =>
    rw [pulseCount, if_pos ho]
    exact State.runTicks_address_stopped h rfl rfl (exec_adc_of_overflow ho)
  | false =>
    rw [pulseCount, if_neg (Bool.eq_false_iff.1 ho)]
    exact State.runTicks_address h rfl rfl (by rw [State.worked_adc_of_inRange ho])

/-- The string form takes one pulse for each character and eight besides (R231). -/
theorem State.runTicks_pulseCount_sysStr {s : State} {hi lo : Byte} (h : s.atInstr (.sysStr hi lo))
    (hzero : ∃ a, s.byteAt a = 0) :
    State.runTicks (pulseCount (.sysStr hi lo) s) s = exec (.sysStr hi lo) s := by
  have hlt := State.stringLength_lt hzero (pairAddr hi lo)
  obtain ⟨-, hticks⟩ := sysStringResult s hi lo _ (State.xReg_of_atInstr_sysStr h) hlt
    (fun _ hj => State.byteAt_ne_zero_of_lt_stringLength hj) (State.byteAt_stringLength hlt)
  exact hticks h

/-- Settles O39: the count is fixed by the format, but for an ADC that stops, for BRK, and for the string form, whose
length is the distance to the first zero byte. -/
theorem pulseCountsOfTheTable : Obligations.PulseCountsOfTheTable := by
  intro s i h hwf hzero
  cases i with
  | ldaImm imm | ldxImm imm | ldyImm imm => exact State.runTicks_operand h List.mem_cons_self rfl rfl
  | bne off => exact State.runTicks_operand h (List.mem_cons_of_mem _ List.mem_cons_self) rfl rfl
  | lda hi lo | sta hi lo | ldx hi lo | ldy hi lo | cpx hi lo | inc hi lo =>
    exact State.runTicks_address h rfl rfl rfl
  | adc hi lo => exact State.runTicks_pulseCount_adc h
  | nop => exact (noOperationResult s).2 h
  | sys => exact (sysIntegerResult s (beq_iff_eq.1 hwf)).2 h
  | sysStr hi lo => exact State.runTicks_pulseCount_sysStr h (hzero ⟨hi, lo, rfl⟩)
  | brk => exact (breakStops s).2 h

end Sys2Proof.Machine
end

/-! # Resets, loading, boot and a placed word (70_reset_and_hazards) -/

section

namespace Sys2Proof.Machine

/-! ## Loading a program (R310) -/

theorem State.load_cons (s : State) (p : Addr × Byte) (rest : List (Addr × Byte)) :
    s.load (p :: rest) = (s.writeImmediate (.int p.1) p.2).load rest := rfl

theorem State.load_append (s : State) (p q : List (Addr × Byte)) : s.load (p ++ q) = (s.load p).load q := by
  induction p generalizing s with
  | nil => rfl
  | cons x rest ih => exact ih _

/-- Loading writes memory, MAR and MDR and nothing else. -/
theorem State.load_frame (s : State) (p : List (Addr × Byte)) :
    s.load p = { s with mem := (s.load p).mem, mar := (s.load p).mar, mdr := (s.load p).mdr } := by
  induction p generalizing s with
  | nil => rfl
  | cons x rest ih =>
    rw [State.load_cons, ih, State.writeImmediate_eq]

/-- What loading leaves in memory depends on what memory held and on no other part of the state. -/
theorem State.load_mem_congr {s t : State} (h : s.mem = t.mem) (p : List (Addr × Byte)) :
    (s.load p).mem = (t.load p).mem := by
  induction p generalizing s t with
  | nil => exact h
  | cons x rest ih =>
    refine ih ?_
    rw [State.writeImmediate_mem, State.writeImmediate_mem, h]

theorem State.byteAt_load_of_not_mem {p : List (Addr × Byte)} {a : Addr} (h : a ∉ p.map Prod.fst) (s : State) :
    (s.load p).byteAt a = s.byteAt a := by
  induction p generalizing s with
  | nil => rfl
  | cons x rest ih =>
    rw [State.load_cons, ih (List.not_mem_of_not_mem_cons h), State.byteAt_writeImmediate]
    exact if_neg (List.ne_of_not_mem_cons h)

/-- A pair whose address stands in no other pair is not stored over. -/
theorem State.byteAt_load_of_mem {p : List (Addr × Byte)} (hp : (p.map Prod.fst).Nodup) {a : Addr} {b : Byte}
    (h : (a, b) ∈ p) (s : State) : (s.load p).byteAt a = b := by
  induction p generalizing s with
  | nil => cases h
  | cons x rest ih =>
    obtain ⟨hx, hrest⟩ := List.nodup_cons.1 hp
    rw [State.load_cons]
    rcases List.mem_cons.1 h with rfl | h
    · rw [State.byteAt_load_of_not_mem hx, State.byteAt_writeImmediate]
      exact if_pos rfl
    · exact ih hrest h _

theorem State.byteAt_load_perm {p q : List (Addr × Byte)} (hp : (p.map Prod.fst).Nodup) (hpq : p.Perm q) (s : State)
    (a : Addr) : (s.load p).byteAt a = (s.load q).byteAt a := by
  have haddr : (p.map Prod.fst).Perm (q.map Prod.fst) := hpq.map Prod.fst
  by_cases ha : a ∈ p.map Prod.fst
  · obtain ⟨⟨_, b⟩, hb, rfl⟩ := List.mem_map.1 ha
    rw [State.byteAt_load_of_mem hp hb, State.byteAt_load_of_mem (haddr.nodup hp) (hpq.mem_iff.1 hb)]
  · rw [State.byteAt_load_of_not_mem ha, State.byteAt_load_of_not_mem (mt haddr.mem_iff.2 ha)]

/-- A raw store at `cell(a)` changes the byte at `a` (R70, R310). -/
theorem State.byteAt_rawWrite_cellIndex (s : State) (a : Addr) (b : Byte) (c : Addr) :
    (s.rawWrite (cellIndex a) b).byteAt c = if c = a then b else s.byteAt c :=
  State.byteAt_of_write (s.rawWrite_mem (cellIndex a) b) c

/-! ## The host's boot (R311) -/

theorem State.actAll_append (as bs : List Action) (s : State) :
    State.actAll (as ++ bs) s = andThen (State.actAll as s) (State.actAll bs) := by
  induction as generalizing s with
  | nil => rfl
  | cons a rest ih =>
    have hrest : State.actAll (rest ++ bs) = fun u => andThen (State.actAll rest u) (State.actAll bs) := funext ih
    rw [List.cons_append, State.actAll, State.actAll, hrest, andThen_assoc]

/-- A device as the host creates it from its name, IRQ number and priority (R256). -/
def createdDevice (d : String × Nat × Int) : Device :=
  { name := d.1, irq := d.2.1, priority := d.2.2, input := [], output := [], debug := true }

theorem State.actAll_createDevice (devs : List (String × Nat × Int)) (s : State) :
    State.actAll (devs.map fun d => .createDevice d.1 d.2.1 d.2.2) s =
      .next { s with deviceTable := s.deviceTable ++ devs.map createdDevice } := by
  induction devs generalizing s with
  | nil => simp [State.actAll]
  | cons d rest ih =>
    calc State.actAll ((d :: rest).map fun d => .createDevice d.1 d.2.1 d.2.2) s
      _ = State.actAll (rest.map fun d => .createDevice d.1 d.2.1 d.2.2) (s.createDevice d.1 d.2.1 d.2.2) := rfl
      _ = .next { s with deviceTable := s.deviceTable ++ [createdDevice d] ++ rest.map createdDevice } := ih _
      _ = _ := by rw [List.append_assoc]; rfl

/-- A device that has the controller's debug flag already is registered and stays as it is (R263). -/
theorem State.addDevice_of_debug {s : State} {d : Nat} {dev : Device} (h : s.deviceTable[d]? = some dev)
    (hdebug : dev.debug = s.controllerDebug) : s.addDevice d = { s with devices := s.devices ++ [d] } := by
  have hset : s.deviceTable.set d dev = s.deviceTable := congrArg State.deviceTable (State.setDevice_self h)
  rw [State.addDevice_of_get h, ← hdebug, hset]

theorem State.actAll_addDevice {ds : List Nat} {s : State}
    (h : ∀ d ∈ ds, ∃ dev, s.deviceTable[d]? = some dev ∧ dev.debug = s.controllerDebug) :
    State.actAll (ds.map .addDevice) s = .next { s with devices := s.devices ++ ds } := by
  induction ds generalizing s with
  | nil => simp [State.actAll]
  | cons d rest ih =>
    obtain ⟨⟨dev, hget, hdebug⟩, hrest⟩ := List.forall_mem_cons.1 h
    calc State.actAll ((d :: rest).map .addDevice) s
      _ = State.actAll (rest.map .addDevice) (s.addDevice d) := rfl
      _ = State.actAll (rest.map .addDevice) { s with devices := s.devices ++ [d] } := by
        rw [State.addDevice_of_debug hget hdebug]
      _ = .next { s with devices := s.devices ++ [d] ++ rest } := ih hrest
      _ = _ := by rw [List.append_assoc]; rfl

theorem State.actAll_store (program : List (Addr × Byte)) (s : State) :
    State.actAll (program.map fun p => .store p.1 p.2) s = .next (s.load program) := by
  induction program generalizing s with
  | nil => rfl
  | cons p rest ih => exact ih _

/-- The CORE after creation with its listeners and devices registered, before the program is loaded. -/
def State.wired (devs : List (String × Nat × Int)) : State :=
  { State.reset with listeners := [.cpu, .memory, .controller], deviceTable := devs.map createdDevice,
                     devices := List.range devs.length }

/-- The boot, part by part in the order of R311. -/
theorem State.actAll_bootActions (devs : List (String × Nat × Int)) (program : List (Addr × Byte)) :
    State.actAll (bootActions devs program) State.reset = .next ((State.wired devs).load program).start := by
  have hlisteners : State.actAll [.addListener .cpu, .addListener .memory, .addListener .controller] State.reset =
      .next { State.reset with listeners := [.cpu, .memory, .controller] } := rfl
  have hcreated : State.actAll (devs.map fun d => .createDevice d.1 d.2.1 d.2.2)
      { State.reset with listeners := [.cpu, .memory, .controller] } =
      .next { State.wired devs with devices := [] } := State.actAll_createDevice devs _
  have hexists : ∀ d ∈ List.range devs.length,
      ∃ dev, (State.wired devs).deviceTable[d]? = some dev ∧ dev.debug = (State.wired devs).controllerDebug := by
    intro d hd
    have hlt : d < devs.length := List.mem_range.1 hd
    exact ⟨createdDevice devs[d], by simp [State.wired, hlt], rfl⟩
  have hregistered : State.actAll ((List.range devs.length).map .addDevice) { State.wired devs with devices := [] } =
      .next (State.wired devs) := State.actAll_addDevice hexists
  rw [bootActions, State.actAll_append, State.actAll_append, State.actAll_append, State.actAll_append, hlisteners,
    andThen_next, hcreated, andThen_next, hregistered, andThen_next, State.actAll_store, andThen_next]
  rfl

/-- The booted CORE is the wired one with the program in memory, MAR and MDR at the last store and the Clock running. -/
theorem State.start_load_wired (devs : List (String × Nat × Int)) (program : List (Addr × Byte)) :
    ((State.wired devs).load program).start =
      { State.wired devs with mem := ((State.wired devs).load program).mem,
                              mar := ((State.wired devs).load program).mar,
                              mdr := ((State.wired devs).load program).mdr, running := true } := by
  rw [State.start, State.load_frame]

/-! ## The placed table word (log entries 3 and 4) -/

theorem fetchAddr_inj {p q : Byte} : fetchAddr p = fetchAddr q ↔ p = q :=
  ⟨fun h => (pairAddr_inj h).2, congrArg fetchAddr⟩

theorem State.placeBytes_frame (s : State) (p : Byte) (bytes : List Byte) :
    s.placeBytes p bytes = { s with mem := (s.placeBytes p bytes).mem } := by
  induction bytes generalizing s p with
  | nil => rfl
  | cons b rest ih => exact ih _ _

/-- Three bytes placed at pc are the bytes there: the code window has 256 addresses, so none stores over another. -/
theorem State.bytesAtPc_placeBytes (s : State) (b0 b1 b2 : Byte) :
    (s.placeBytes s.pc [b0, b1, b2]).bytesAtPc = [b0, b1, b2] := by
  simp [State.bytesAtPc, State.placeBytes, State.byteAt_rawWrite_cellIndex, fetchAddr_inj, BitVec.add_assoc]

theorem State.booted_ready (s : State) : s.booted.ready = true := by
  have hacc : s.booted.accInRange = true := by
    by_cases h : s.accInRange = true
    · have hkept : s.booted.acc = s.acc := if_pos h
      rwa [State.accInRange, hkept]
    · have hcleared : s.booted.acc = 0 := if_neg h
      rw [State.accInRange, hcleared]
      rfl
  exact (State.ready_iff _).2 ⟨(State.live_iff _).2 ⟨rfl, rfl, rfl, hacc⟩, rfl, rfl⟩

theorem State.selectForm_frame (s : State) (nbits w : Nat) :
    s.selectForm nbits w = { s with xReg := (s.selectForm nbits w).xReg } := by
  unfold State.selectForm
  split <;> rfl

/-- Placing a word boots the CORE, selects the form of SYS and writes memory. -/
theorem State.withFetchWord_frame (s : State) (nbits w : Nat) :
    s.withFetchWord nbits w =
      { s.booted with xReg := (s.booted.selectForm nbits w).xReg, mem := (s.withFetchWord nbits w).mem } := by
  have hplace : s.withFetchWord nbits w = { s.booted.selectForm nbits w with mem := (s.withFetchWord nbits w).mem } :=
    State.placeBytes_frame _ _ _
  rw [State.selectForm_frame] at hplace
  exact hplace

theorem State.bytesAtPc_withFetchWord (s : State) (nbits w : Nat) :
    (s.withFetchWord nbits w).bytesAtPc = tableBytes nbits w := by
  have hpc : (s.booted.selectForm nbits w).pc = s.pc := by rw [State.selectForm_frame]; rfl
  rw [State.withFetchWord, State.placeWord, ← hpc]
  exact State.bytesAtPc_placeBytes _ _ _ _

/-- Only the length of SYS depends on xReg (R107). -/
theorem lengthOf_of_ne_sys {b : Byte} (h : b ≠ Opcode.byte .sys) (x y : Byte) : lengthOf b x = lengthOf b y := by
  cases hop : Opcode.ofByte b with
  | none => rw [lengthOf_of_unknown hop, lengthOf_of_unknown hop]
  | some op =>
    obtain rfl := Opcode.byte_of_ofByte hop
    cases op with
    | sys => exact absurd rfl h
    | _ => rfl

/-- The length of a placed word is the one it has in the table: where it depends on xReg, placing the word sets xReg. -/
theorem State.lengthOf_selectForm (s : State) (nbits w : Nat) {b : Byte} (hb : b = BitVec.ofNat 8 (w % 2 ^ nbits)) :
    lengthOf b (s.selectForm nbits w).xReg = lengthOf b (tableSelector nbits) := by
  by_cases hsys : b = Opcode.byte .sys
  · rw [State.selectForm, if_pos (hb ▸ hsys)]
  · exact lengthOf_of_ne_sys hsys _ _

theorem decode_of_decodeTableWord {nbits w : Nat} {i : Instr} (h : decodeTableWord nbits w = some i) :
    ∃ rest, decode (tableSelector nbits) (tableBytes nbits w) = .ok (i, rest) := by
  unfold decodeTableWord at h
  split at h
  · next found rest hd =>
    obtain rfl := Option.some.inj h
    exact ⟨rest, hd⟩
  · cases h

/-- The decoder reads a placed word as it reads the word in the table. -/
theorem State.atInstr_withFetchWord {nbits w : Nat} {i : Instr} (h : decodeTableWord nbits w = some i) (s : State) :
    (s.withFetchWord nbits w).atInstr i := by
  obtain ⟨rest, hdecode⟩ := decode_of_decodeTableWord h
  obtain ⟨hbytes, hlen⟩ := decode_eq_ok_iff.1 hdecode
  have hfirst : i.opcode.byte = BitVec.ofNat 8 (w % 2 ^ nbits) := (List.cons.inj hbytes).1.symm
  have hx : (s.withFetchWord nbits w).xReg = (s.booted.selectForm nbits w).xReg := by rw [State.withFetchWord_frame]
  refine ⟨?_, rest, decode_eq_ok_iff.2 ⟨?_, ?_⟩⟩
  · rw [State.withFetchWord_frame]
    exact s.booted_ready
  · rw [State.bytesAtPc_withFetchWord, hbytes]
  · rw [hx, State.lengthOf_selectForm _ _ _ hfirst, hlen]

/-! ## The obligations -/

/-- Settles O59: re-creation starts from the state after creation, and Memory's reset writes its three fields. -/
theorem resetsOfCoreAndMemory : Obligations.ResetsOfCoreAndMemory := fun _ => ⟨rfl, rfl⟩

/-- Settles O56: each address has one pair at most, so the byte it holds is that pair's wherever the pair stands. -/
theorem loadOrderDoesNotMatter : Obligations.LoadOrderDoesNotMatter := by
  intro s p q hp hpq
  refine ⟨s.byteAt_load_perm hp hpq, fun _ _ h => State.byteAt_load_of_mem hp h s,
    fun _ h => State.byteAt_load_of_not_mem h s, fun a b => ?_, fun a b c => ?_⟩
  · rw [State.load_append, State.load_cons, State.writeImmediate_eq]
    exact ⟨rfl, rfl⟩
  · exact (s.byteAt_rawWrite_cellIndex a b c).trans (s.byteAt_writeImmediate (.int a) b c).symm

/-- Settles O43: nothing is scheduled and the CPU is at the placed instruction, so the step runs it. -/
theorem placedWordRunsNext : Obligations.PlacedWordRunsNext := by
  intro s nbits w i h
  obtain ⟨hready, rest, hdecode⟩ := State.atInstr_withFetchWord h s
  have hin : (s.withFetchWord nbits w).inputs = [] := by rw [State.withFetchWord_frame]; rfl
  rw [step_of_ready hin hready, State.runInstruction_of_decodeNext hdecode]

/-- Settles O58: the boot leads to a live CORE about to run stage 0 at pc 0, and the first tick is its fetch. -/
theorem bootFetchesAddressZero : Obligations.BootFetchesAddressZero := by
  intro devs program
  have hboot := State.start_load_wired devs program
  have hlive : ((State.wired devs).load program).start.live = true := by rw [hboot]; rfl
  have hfetch : ((State.wired devs).load program).start.step = .fetch := by rw [hboot]; rfl
  have hstep : step { State.reset with inputs := [bootActions devs program] } =
      .next ((State.wired devs).load program).start.fetchRoutine := by
    rw [scheduledActionsPrecedeOneTick _ _ _ _ rfl (State.actAll_bootActions devs program), State.tick_live hlive,
      State.runStage_fetch hfetch]
  have hopp : ((State.wired devs).load program).start.fetchRoutine.opp = (State.reset.load program).byteAt 0x0000 := by
    have hpc : ((State.wired devs).load program).start.pc = 0 := by rw [hboot]; rfl
    have hmem : ((State.wired devs).load program).start.mem = (State.reset.load program).mem :=
      State.load_mem_congr (s := State.wired devs) (t := State.reset) rfl program
    rw [State.fetchRoutine_opp, hpc]
    exact State.byteAt_congr hmem 0x0000
  refine ⟨_, hstep, hopp, ?_⟩
  rw [hboot]
  exact ⟨rfl, rfl, rfl, rfl, rfl, rfl, rfl, rfl⟩

end Sys2Proof.Machine
end
